-- ==== Sys2Proof/Word.lean ====
section
/-! DEFINITION. The word types of the shift-in controller (00_scope.md R10, R13, R15): bit 0 is the
least significant bit of every one of them, and all values are unsigned. -/

namespace Sys2Proof

/-- A 32-bit host register, command word or bus datum (20_memory.md R60). -/
abbrev Word := BitVec 32

/-- A pin identifier, opaque to the block (00_scope.md R10). -/
abbrev PinId := BitVec 8

/-- A digital level: true is logic-high (00_scope.md R15). -/
abbrev Level := Bool

end Sys2Proof
end

