-- ==== Sys2Proof/Config.lean ====
section
/-! DEFINITION. The implementation parameters (00_scope.md section 3 and 20_memory.md R61).

"The model takes every parameter below as an argument": they are plain data that State carries in its
field `build` and that no step changes, so a statement over every state is a statement over every
parameter. The bit width W is no parameter but the register CFG_WIDTH (00_scope.md R12), and L_PIN is a
draw of each call (R11), an input of the machine. -/

namespace Sys2Proof

/-- The build-time parameters of one instance and its platform. -/
structure Config where
  /-- WMAX, the width of ACC and the largest W an INIT accepts (R5); PARAMS shows it in 8 bits. -/
  wmax : BitVec 8
  /-- N_SETTLE, the length of a settle wait in ticks (R6). -/
  nSettle : BitVec 32
  /-- N_CADENCE, the gap between loop acquisitions in ticks (R8). -/
  nCadence : BitVec 32
  /-- F_CLK (R7), a whole number of hertz: DESIGN CHOICE (log 21). -/
  fClkHz : Nat
  /-- T_SETTLE (R6), a whole number of nanoseconds: DESIGN CHOICE (log 21). -/
  tSettleNs : Nat
  /-- The platform's valid pin identifiers, the predicate `pinValid` written out (R9). -/
  validPins : List PinId
  /-- SIC_BASE, the byte address of the register window (20_memory.md R61). -/
  sicBase : Nat
  /-- The pins that another instance or agent uses (60_exceptions.md R270). -/
  sharedPins : List PinId
  deriving DecidableEq, Repr

/-- DESIGN CHOICE (log 1): the reference values that 00_scope.md R5 to R9 and 92_eei_decisions.md's table
of OPEN parameters name, SIC_BASE 0 as in 95_test_vectors.md, and no shared pin. -/
def Config.reference : Config where
  wmax := 64#8
  nSettle := 1000#32
  nCadence := 100000000#32
  fClkHz := 100000000
  tSettleNs := 10000
  validPins := (List.range 28).map (BitVec.ofNat 8)
  sicBase := 0
  sharedPins := []

end Sys2Proof
end

