-- ==== Sys2Proof/Syntax.lean ====
section
/-! DEFINITION. The two instruction spaces of the block (30_encoding.md): the host commands (format CMD,
R91) and the sequencer phases (format UOP, R100), one constructor of `Instr` per row of the opcode table. -/

namespace Sys2Proof

/-- The operation of a host command, as CUR_OP records it (10_state.md R42, 30_encoding.md R91). -/
inductive Op where
  | init | acqAll | acqBit | acqLoop | cancel | describe | release
  deriving DecidableEq, Repr

/-- The sequencer phases (30_encoding.md R100). -/
inductive Phase where
  | idle
  | iCfgSdata | iCfgLoad | iCfgClk | iIdleLoad | iIdleClk
  | ldFall | ldLowWait | ldRise | ldHighWait
  | smp
  | ckRise | ckHighWait | ckFall | ckLowWait
  | capture | cadenceWait
  | rel
  deriving DecidableEq, Repr

/-- An instruction: a host command or a phase of the sequencer. -/
inductive Instr where
  /-- INIT (41_init.md R150). -/
  | init
  /-- ACQ_ALL (43_acquire.md R190). -/
  | acqAll
  /-- ACQ_BIT with its operand `IDX = zext_7(v[13:8])` (43_acquire.md R196, 30_encoding.md R92). -/
  | acqBit (idx : BitVec 7)
  /-- ACQ_LOOP (43_acquire.md R198). -/
  | acqLoop
  /-- CANCEL (43_acquire.md R200). -/
  | cancel
  /-- DESCRIBE (44_teardown.md R236). -/
  | describe
  /-- RELEASE (44_teardown.md R230). -/
  | release
  /-- IDLE (40_sequencer.md R127). -/
  | idle
  /-- I_CFG_SDATA (41_init.md R152). -/
  | iCfgSdata
  /-- I_CFG_LOAD (41_init.md R153). -/
  | iCfgLoad
  /-- I_CFG_CLK (41_init.md R154). -/
  | iCfgClk
  /-- I_IDLE_LOAD (41_init.md R155). -/
  | iIdleLoad
  /-- I_IDLE_CLK (41_init.md R156). -/
  | iIdleClk
  /-- LD_FALL (42_pulses.md R171). -/
  | ldFall
  /-- LD_LOW_WAIT (42_pulses.md R172). -/
  | ldLowWait
  /-- LD_RISE (42_pulses.md R173). -/
  | ldRise
  /-- LD_HIGH_WAIT (42_pulses.md R174). -/
  | ldHighWait
  /-- SMP (43_acquire.md R192). -/
  | smp
  /-- CK_RISE (42_pulses.md R176). -/
  | ckRise
  /-- CK_HIGH_WAIT (42_pulses.md R177). -/
  | ckHighWait
  /-- CK_FALL (42_pulses.md R178). -/
  | ckFall
  /-- CK_LOW_WAIT (42_pulses.md R179). -/
  | ckLowWait
  /-- CAPTURE (43_acquire.md R194). -/
  | capture
  /-- CADENCE_WAIT (43_acquire.md R199). -/
  | cadenceWait
  /-- REL (44_teardown.md R233). -/
  | rel
  deriving DecidableEq, Repr

/-- An encoded instruction: the 32-bit word of a CMD write or the 5-bit code SEQ holds. -/
inductive Encoded where
  | cmd (word : Word)
  | uop (code : BitVec 5)
  deriving DecidableEq, Repr

end Sys2Proof
end

