-- ==== Sys2Proof/WellFormed.lean ====
section
/-! DEFINITION. Well-formedness: of an instruction (what an encoding can carry) and of the build
parameters (the legal ranges of 00_scope.md section 3). -/

namespace Sys2Proof

/-- IDX is 0 to 63: "idx ≥ 64 cannot be encoded" (43_acquire.md R196). Nothing else has an operand. -/
def Instr.wf : Instr → Bool
  | .acqBit idx => decide (idx.toNat < 64)
  | .init | .acqAll | .acqLoop | .cancel | .describe | .release => true
  | .idle | .iCfgSdata | .iCfgLoad | .iCfgClk | .iIdleLoad | .iIdleClk => true
  | .ldFall | .ldLowWait | .ldRise | .ldHighWait => true
  | .smp | .ckRise | .ckHighWait | .ckFall | .ckLowWait => true
  | .capture | .cadenceWait | .rel => true

/-- The build parameters are in their legal ranges (00_scope.md R5, R6, R8), and the settle interval is
long enough: `N_SETTLE / F_CLK ≥ T_SETTLE`, multiplied out in nanoseconds (R6, R16). DESIGN CHOICE (log 21): the
product admits F_CLK = 0, for which R6's quotient is undefined; R7 gives F_CLK no range. -/
def Config.wf (c : Config) : Bool :=
  decide (1 ≤ c.wmax.toNat) && decide (c.wmax.toNat ≤ 64) &&
  decide (1 ≤ c.nSettle.toNat) && decide (1 ≤ c.nCadence.toNat) &&
  decide (c.tSettleNs * c.fClkHz ≤ c.nSettle.toNat * 1000000000)

end Sys2Proof
end

