-- ==== Sys2Proof/Decode.lean ====
section
/-! DEFINITION. The decoder of both instruction spaces and, after it, the encoder (30_encoding.md). -/

namespace Sys2Proof

/-- Why an encoding is no instruction: the two rejections of 30_encoding.md R94 and the unused phase
codes of R101. -/
inductive DecodeError where
  | illegalOp
  | badEncoding
  | unusedPhase
  deriving DecidableEq, Repr

/-- The field OP, bits 3:0 of a command word (30_encoding.md R90). -/
def opField (w : Word) : BitVec 4 := w.extractLsb' 0 4

/-- The field IDX, bits 13:8, zero-extended to 7 bits (30_encoding.md R90, R92). -/
def idxField (w : Word) : BitVec 7 := (w.extractLsb' 8 6).setWidth 7

/-- The reserved bits of a command word, by its OP (30_encoding.md R93, R94). -/
def reservedMask (op : BitVec 4) : Word :=
  if op = 3#4 then 0xFFFFC0F0#32 else 0xFFFFFFF0#32

/-- The command of an assigned OP (30_encoding.md R91). -/
def commandOf (op : BitVec 4) (idx : BitVec 7) : Option Instr :=
  match op.toNat with
  | 1 => some .init
  | 2 => some .acqAll
  | 3 => some (.acqBit idx)
  | 4 => some .acqLoop
  | 5 => some .cancel
  | 6 => some .describe
  | 7 => some .release
  | _ => none

/-- `decode` of 30_encoding.md R94: total, and ILLEGAL_OP is checked before BAD_ENCODING. -/
def decodeCommand (w : Word) : Except DecodeError Instr :=
  match commandOf (opField w) (idxField w) with
  | none => .error .illegalOp
  | some i =>
    if w &&& reservedMask (opField w) = 0#32 then .ok i else .error .badEncoding

/-- The phase a code of SEQ stands for; none for the unused codes (30_encoding.md R100, R101). -/
def phaseOfCode (c : BitVec 5) : Option Phase :=
  match c.toNat with
  | 0x00 => some .idle
  | 0x01 => some .iCfgSdata
  | 0x02 => some .iCfgLoad
  | 0x03 => some .iCfgClk
  | 0x04 => some .iIdleLoad
  | 0x05 => some .iIdleClk
  | 0x08 => some .ldFall
  | 0x09 => some .ldLowWait
  | 0x0A => some .ldRise
  | 0x0B => some .ldHighWait
  | 0x0C => some .smp
  | 0x0D => some .ckRise
  | 0x0E => some .ckHighWait
  | 0x0F => some .ckFall
  | 0x10 => some .ckLowWait
  | 0x11 => some .capture
  | 0x12 => some .cadenceWait
  | 0x13 => some .rel
  | _ => none

/-- The instruction that runs a phase. -/
def phaseInstr : Phase → Instr
  | .idle => .idle
  | .iCfgSdata => .iCfgSdata
  | .iCfgLoad => .iCfgLoad
  | .iCfgClk => .iCfgClk
  | .iIdleLoad => .iIdleLoad
  | .iIdleClk => .iIdleClk
  | .ldFall => .ldFall
  | .ldLowWait => .ldLowWait
  | .ldRise => .ldRise
  | .ldHighWait => .ldHighWait
  | .smp => .smp
  | .ckRise => .ckRise
  | .ckHighWait => .ckHighWait
  | .ckFall => .ckFall
  | .ckLowWait => .ckLowWait
  | .capture => .capture
  | .cadenceWait => .cadenceWait
  | .rel => .rel

/-- The instruction SEQ's code selects (40_sequencer.md R126), refused for an unused code. -/
def decodePhase (c : BitVec 5) : Except DecodeError Instr :=
  match phaseOfCode c with
  | some p => .ok (phaseInstr p)
  | none => .error .unusedPhase

/-- The decoder of both spaces. -/
def decode : Encoded → Except DecodeError Instr
  | .cmd w => decodeCommand w
  | .uop c => decodePhase c

/-- The encoded instruction that the bits `w` of an opcode-table row stand for: a row of at most 8 bits is a
phase code, of which SEQ holds bits 4:0 (the table's mask 0x1F); a longer row is a 32-bit command word, and
bits above the word make it none (log 14). -/
def tableEncoded (nbits w : Nat) : Option Encoded :=
  if nbits ≤ 8 then some (.uop (BitVec.ofNat 5 w))
  else if w < 2 ^ 32 then some (.cmd (BitVec.ofNat 32 w)) else none

/-- The instruction the decoder reads from the bits `w` of a row `nbits` long (log 14). -/
def decodeTableWord (nbits w : Nat) : Option Instr :=
  match tableEncoded nbits w with
  | none => none
  | some e =>
    match decode e with
    | .ok i => some i
    | .error _ => none

/-- The code of a phase (30_encoding.md R100). -/
def phaseCode : Phase → BitVec 5
  | .idle => 0x00#5
  | .iCfgSdata => 0x01#5
  | .iCfgLoad => 0x02#5
  | .iCfgClk => 0x03#5
  | .iIdleLoad => 0x04#5
  | .iIdleClk => 0x05#5
  | .ldFall => 0x08#5
  | .ldLowWait => 0x09#5
  | .ldRise => 0x0A#5
  | .ldHighWait => 0x0B#5
  | .smp => 0x0C#5
  | .ckRise => 0x0D#5
  | .ckHighWait => 0x0E#5
  | .ckFall => 0x0F#5
  | .ckLowWait => 0x10#5
  | .capture => 0x11#5
  | .cadenceWait => 0x12#5
  | .rel => 0x13#5

/-- The encoder: `encode(m, idx)` of 30_encoding.md R109 for a command (R111), the phase code for a phase. -/
def encode : Instr → Encoded
  | .init => .cmd 0x00000001#32
  | .acqAll => .cmd 0x00000002#32
  | .acqBit idx => .cmd (0x00000003#32 ||| (idx.setWidth 32 <<< 8))
  | .acqLoop => .cmd 0x00000004#32
  | .cancel => .cmd 0x00000005#32
  | .describe => .cmd 0x00000006#32
  | .release => .cmd 0x00000007#32
  | .idle => .uop (phaseCode .idle)
  | .iCfgSdata => .uop (phaseCode .iCfgSdata)
  | .iCfgLoad => .uop (phaseCode .iCfgLoad)
  | .iCfgClk => .uop (phaseCode .iCfgClk)
  | .iIdleLoad => .uop (phaseCode .iIdleLoad)
  | .iIdleClk => .uop (phaseCode .iIdleClk)
  | .ldFall => .uop (phaseCode .ldFall)
  | .ldLowWait => .uop (phaseCode .ldLowWait)
  | .ldRise => .uop (phaseCode .ldRise)
  | .ldHighWait => .uop (phaseCode .ldHighWait)
  | .smp => .uop (phaseCode .smp)
  | .ckRise => .uop (phaseCode .ckRise)
  | .ckHighWait => .uop (phaseCode .ckHighWait)
  | .ckFall => .uop (phaseCode .ckFall)
  | .ckLowWait => .uop (phaseCode .ckLowWait)
  | .capture => .uop (phaseCode .capture)
  | .cadenceWait => .uop (phaseCode .cadenceWait)
  | .rel => .uop (phaseCode .rel)

end Sys2Proof
end

