-- ==== Sys2Proof/Machine/State.lean ====
section
/-! DEFINITION. The state of one SIC instance (10_state.md R20), as plain data: the host-visible registers,
the internal registers, the ghost TRACE, the build parameters, and the model's own three fields: the inputs
of the coming ticks, the data of the last host read and the requests that a reset abandoned. The block has no
memory (20_memory.md R67). -/

namespace Sys2Proof.Machine

/-- DriverState, STATUS.LIFE (10_state.md R31); code 3 is never produced. -/
inductive Life where
  | unconfigured | active | tornDown
  deriving DecidableEq, Repr

/-- STATUS.ERR (10_state.md R36); codes 4 to 7 are never produced. -/
inductive ErrCode where
  | none | configuration | initialization | hardwareFault
  deriving DecidableEq, Repr

/-- STATUS.REJ (10_state.md R37); codes 6 and 7 are never produced. -/
inductive RejCode where
  | none | illegalOp | badEncoding | busy | badState | badOperand
  deriving DecidableEq, Repr

/-- STATUS.EXIT (10_state.md R38). -/
inductive ExitCode where
  | none | released | cancelled | fault
  deriving DecidableEq, Repr

/-- TDR, the teardown reason (10_state.md R43); codes 5 to 7 are never produced. -/
inductive Tdr where
  | none | released | cancelled | fault | initFail
  deriving DecidableEq, Repr

/-- CALLST, the sub-state of a call phase (10_state.md R41). -/
inductive CallState where
  | issue | wait
  deriving DecidableEq, Repr

/-- The operations of the Pin Interface (20_memory.md R70, 30_encoding.md R106). -/
inductive PinOp where
  | cfgIn | cfgOut | write | read | release
  deriving DecidableEq, Repr

/-- A Pin Interface request: the payload of the request port (20_memory.md R70, R77). -/
structure PinReq where
  op : PinOp
  pin : PinId
  arg : BitVec 2
  deriving DecidableEq, Repr

/-- A Pin Interface response (30_encoding.md R108). -/
structure PinRsp where
  fault : Bool
  level : Level
  deriving DecidableEq, Repr

/-- One completed Pin Interface transaction, an entry of TRACE (10_state.md R49). -/
structure PinCall where
  req : PinReq
  fault : Bool
  level : Level
  deriving DecidableEq, Repr

/-- A host access: a read or a write of `size` bytes at a platform byte address (20_memory.md R60). -/
inductive HostAccess where
  | read (addr : Nat) (size : Nat)
  | write (addr : Nat) (size : Nat) (value : Word)
  deriving DecidableEq, Repr

/-- The inputs of one tick (40_sequencer.md R120, 70_reset_and_hazards.md R290). -/
structure TickIn where
  rst : Bool
  rsp : Option PinRsp
  acc : Option HostAccess
  deriving DecidableEq, Repr

/-- The registers of the host window (10_state.md R21). -/
inductive HostReg where
  | cmd | status | cfgWidth | cfgPins | resultLo | resultHi | params | reserved
  deriving DecidableEq, Repr

structure State where
  /-- The build parameters (00_scope.md section 3); no step changes them. -/
  build : Config
  /-- CFG_WIDTH.WIDTH, W (R24). -/
  cfgWidth : BitVec 8
  /-- CFG_PINS.SDATA (R25). -/
  cfgSdata : PinId
  /-- CFG_PINS.LOAD (R25). -/
  cfgLoad : PinId
  /-- CFG_PINS.CLK (R25). -/
  cfgClk : PinId
  /-- RESULT, the parallel-capture latch (R27). -/
  result : BitVec 64
  /-- STATUS.DONE (R32). -/
  done : Bool
  /-- STATUS.LIFE (R31). -/
  life : Life
  /-- STATUS.LOOP (R33). -/
  loopMode : Bool
  /-- STATUS.CANCEL_PENDING (R34). -/
  cancelPending : Bool
  /-- STATUS.RELEASE_PENDING (R34). -/
  releasePending : Bool
  /-- STATUS.RELFAULT (R35). -/
  relFault : Bool
  /-- STATUS.ERR (R36). -/
  err : ErrCode
  /-- STATUS.REJ (R37). -/
  rej : RejCode
  /-- STATUS.EXIT (R38). -/
  exit : ExitCode
  /-- STATUS.FAULT_OP; absent is code 0 (R39). -/
  faultOp : Option PinOp
  /-- STATUS.COUNT (R47). -/
  count : BitVec 8
  /-- SEQ, the sequencer phase (R40). -/
  seq : BitVec 5
  /-- CALLST (R41). -/
  callst : CallState
  /-- CUR_OP; absent is code 0 (R42). -/
  curOp : Option Op
  /-- CUR_IDX (R42). -/
  curIdx : BitVec 6
  /-- TDR (R43). -/
  tdr : Tdr
  /-- ACC, of which only bits below WMAX are ever written (R44, log 10). -/
  acc : BitVec 64
  /-- BIT, the shift-position counter (R45). -/
  bit : BitVec 7
  /-- TMR, the settle and cadence timer (R46). -/
  tmr : BitVec 32
  /-- TRACE, the ghost history of pin calls in issue order (R49). -/
  trace : List PinCall
  /-- The model's own: the inputs of the coming ticks, quiet after the last one (log 2). -/
  env : List TickIn
  /-- The model's own: what the last tick's host read returned (log 3). -/
  rdata : Option Word
  /-- The model's own: the requests that a reset abandoned and that no response has answered yet
  (70_reset_and_hazards.md R291, log 5). -/
  stale : Nat
  deriving DecidableEq, Repr

/-- No constructor: the block has no trap and no fault of its own that stops it; every error is recorded in
STATUS and the sequencer goes on (60_exceptions.md R250, R262). Safe: no step ends in a fault. -/
inductive Fault where
  deriving DecidableEq, Repr

/-- Why the model has no step. -/
inductive Refusal where
  /-- An instruction without a meaning yet; raised only by exec's own arms. Safe. No arm raises it. -/
  | notModelled (mnemonic : String)
  /-- SEQ holds an unused phase code; raised by the tick (30_encoding.md R101). Safe. -/
  | unusedPhase (code : BitVec 5)
  /-- The host access of the tick is not an aligned 32-bit access to the window; raised by the tick
  (20_memory.md R63). Safe. -/
  | badAccess
  /-- A Pin Interface response in a tick in which no call waits for one and no request that a reset abandoned
  is unanswered; raised by the tick (60_exceptions.md R273, 20_memory.md R78, log 5). Safe. -/
  | spuriousResponse
  /-- INIT accepted with a valid configuration that names a pin another agent uses (60_exceptions.md R270).
  Safe. -/
  | sharedPin
  deriving DecidableEq, Repr

/-- What a step or a meaning answers. -/
abbrev Result := Host.Outcome State Fault Refusal

/-- The reset values of 10_state.md R52, for given build parameters, coming inputs and read data. -/
def State.ofReset (build : Config) (env : List TickIn) (rdata : Option Word) : State where
  build := build
  cfgWidth := 8#8
  cfgSdata := 0#8
  cfgLoad := 0#8
  cfgClk := 0#8
  result := 0#64
  done := false
  life := .unconfigured
  loopMode := false
  cancelPending := false
  releasePending := false
  relFault := false
  err := .none
  rej := .none
  exit := .none
  faultOp := none
  count := 0#8
  seq := 0x00#5
  callst := .issue
  curOp := none
  curIdx := 0#6
  tdr := .none
  acc := 0#64
  bit := 0#7
  tmr := 0#32
  trace := []
  env := env
  rdata := rdata
  stale := 0

/-- The machine right after reset (10_state.md R52), built with the reference parameters (log 1), with no
input to come (log 2) and nothing read (log 3). -/
def State.reset : State := State.ofReset Config.reference [] none

end Sys2Proof.Machine
end

