-- ==== Sys2Proof/Machine/Flags.lean ====
section
/-! DEFINITION. The codes of the STATUS fields and the derived flags (10_state.md sections 2 and 3). -/

namespace Sys2Proof.Machine

/-- The code of LIFE (10_state.md R31). -/
def lifeCode : Life → BitVec 2
  | .unconfigured => 0#2
  | .active => 1#2
  | .tornDown => 2#2

/-- The code of ERR (10_state.md R36). -/
def errCode : ErrCode → BitVec 3
  | .none => 0#3
  | .configuration => 1#3
  | .initialization => 2#3
  | .hardwareFault => 3#3

/-- The code of REJ (10_state.md R37). -/
def rejCode : RejCode → BitVec 3
  | .none => 0#3
  | .illegalOp => 1#3
  | .badEncoding => 2#3
  | .busy => 3#3
  | .badState => 4#3
  | .badOperand => 5#3

/-- The code of EXIT (10_state.md R38). -/
def exitCode : ExitCode → BitVec 2
  | .none => 0#2
  | .released => 1#2
  | .cancelled => 2#2
  | .fault => 3#2

/-- The code of a Pin Interface operation (30_encoding.md R106). -/
def pinOpCode : PinOp → BitVec 3
  | .cfgIn => 1#3
  | .cfgOut => 2#3
  | .write => 3#3
  | .read => 4#3
  | .release => 5#3

/-- The code of FAULT_OP: 0 when no operation is recorded (10_state.md R39). -/
def faultOpCode : Option PinOp → BitVec 3
  | none => 0#3
  | some op => pinOpCode op

/-- The code of CUR_OP: the command's OP, 0 when no sequence runs (10_state.md R42, 30_encoding.md R91). -/
def curOpCode : Option Op → BitVec 4
  | none => 0#4
  | some .init => 1#4
  | some .acqAll => 2#4
  | some .acqBit => 3#4
  | some .acqLoop => 4#4
  | some .cancel => 5#4
  | some .describe => 6#4
  | some .release => 7#4

/-- The code of TDR (30_encoding.md R102). -/
def tdrCode : Tdr → BitVec 3
  | .none => 0#3
  | .released => 1#3
  | .cancelled => 2#3
  | .fault => 3#3
  | .initFail => 4#3

/-- The code of CALLST (30_encoding.md R102). -/
def callstCode : CallState → BitVec 1
  | .issue => 0#1
  | .wait => 1#1

/-- STATUS.BUSY: SEQ is not IDLE (10_state.md R30). -/
def busy (s : State) : Bool := decide (s.seq ≠ phaseCode .idle)

/-- `inAcq` of 40_sequencer.md R124: an acquisition command runs and SEQ is not REL. -/
def inAcq (s : State) : Bool :=
  (decide (s.curOp = some .acqAll) || decide (s.curOp = some .acqBit) || decide (s.curOp = some .acqLoop))
    && decide (s.seq ≠ phaseCode .rel)

/-- The STATUS word (10_state.md R23), most significant field first. -/
def statusWord (s : State) : Word :=
  s.count ++ 0#3 ++ faultOpCode s.faultOp ++ exitCode s.exit ++ 0#1 ++ rejCode s.rej ++ 0#1 ++ errCode s.err
    ++ BitVec.ofBool s.relFault ++ BitVec.ofBool s.releasePending ++ BitVec.ofBool s.cancelPending
    ++ BitVec.ofBool s.loopMode ++ lifeCode s.life ++ BitVec.ofBool s.done ++ BitVec.ofBool (busy s)

end Sys2Proof.Machine
end

