-- ==== Sys2Proof/Machine/Operands.lean ====
section
/-! DEFINITION. What the rules read: the inputs of the tick, the configuration and its validity, the pin
requests of the call phases, and the request port's outputs. -/

namespace Sys2Proof.Machine

/-- A tick without reset, response or host access: what the inputs are once `env` has run out (log 2). -/
def quietTick : TickIn := { rst := false, rsp := none, acc := none }

/-- The inputs of the tick that runs now (40_sequencer.md R120). -/
def tickIn (s : State) : TickIn :=
  match s.env with
  | [] => quietTick
  | t :: _ => t

/-- The Pin Interface response of the tick, if `pin_rsp_valid` is 1 (20_memory.md R77). -/
def rspNow (s : State) : Option PinRsp := (tickIn s).rsp

/-- The host access of the tick. -/
def accNow (s : State) : Option HostAccess := (tickIn s).acc

/-- The input `rst` of the tick (70_reset_and_hazards.md R290). -/
def rstNow (s : State) : Bool := (tickIn s).rst

/-- `pinValid` (00_scope.md R9). -/
def pinValid (c : Config) (p : PinId) : Bool := c.validPins.contains p

/-- `cfgValid(W, P)` over the configuration registers (41_init.md R151). -/
def cfgValid (s : State) : Bool :=
  decide (1 ≤ s.cfgWidth.toNat) && decide (s.cfgWidth.toNat ≤ s.build.wmax.toNat) &&
  pinValid s.build s.cfgSdata && pinValid s.build s.cfgLoad && pinValid s.build s.cfgClk &&
  decide (s.cfgSdata ≠ s.cfgLoad) && decide (s.cfgSdata ≠ s.cfgClk) && decide (s.cfgLoad ≠ s.cfgClk)

/-- The configuration names a pin that another agent uses (60_exceptions.md R270, log 9). -/
def sharesPin (s : State) : Bool :=
  s.build.sharedPins.contains s.cfgSdata || s.build.sharedPins.contains s.cfgLoad ||
  s.build.sharedPins.contains s.cfgClk

/-- The argument of a WRITE: the level in bit 0 (30_encoding.md R108). -/
def levelArg (l : Level) : BitVec 2 := if l then 1#2 else 0#2

/-- `CFG_IN(SDATA, DOWN)` (20_memory.md R71, 30_encoding.md R107). -/
def reqCfgSdata (s : State) : PinReq := { op := .cfgIn, pin := s.cfgSdata, arg := 1#2 }

/-- `CFG_OUT(pin)` (20_memory.md R72). -/
def reqCfgOut (pin : PinId) : PinReq := { op := .cfgOut, pin := pin, arg := 0#2 }

/-- `WRITE(pin, level)` (20_memory.md R73). -/
def reqWrite (pin : PinId) (l : Level) : PinReq := { op := .write, pin := pin, arg := levelArg l }

/-- `READ(SDATA)` (20_memory.md R74). -/
def reqRead (s : State) : PinReq := { op := .read, pin := s.cfgSdata, arg := 0#2 }

/-- `RELEASE` (20_memory.md R75). -/
def reqRelease : PinReq := { op := .release, pin := 0#8, arg := 0#2 }

/-- The request of a call phase, none for a wait or internal phase (30_encoding.md R100). -/
def phaseRequest (p : Phase) (s : State) : Option PinReq :=
  match p with
  | .iCfgSdata => some (reqCfgSdata s)
  | .iCfgLoad => some (reqCfgOut s.cfgLoad)
  | .iCfgClk => some (reqCfgOut s.cfgClk)
  | .iIdleLoad => some (reqWrite s.cfgLoad true)
  | .iIdleClk => some (reqWrite s.cfgClk false)
  | .ldFall => some (reqWrite s.cfgLoad false)
  | .ldRise => some (reqWrite s.cfgLoad true)
  | .smp => some (reqRead s)
  | .ckRise => some (reqWrite s.cfgClk true)
  | .ckFall => some (reqWrite s.cfgClk false)
  | .rel => some reqRelease
  | .idle | .ldLowWait | .ldHighWait | .ckHighWait | .ckLowWait | .capture | .cadenceWait => none

/-- The block waits for a response: a call phase with CALLST = WAIT (20_memory.md R77). -/
def awaiting (s : State) : Bool :=
  match phaseOfCode s.seq with
  | none => false
  | some p => (phaseRequest p s).isSome && decide (s.callst = .wait)

/-- The response of the tick answers no request: the environment has no such move (60_exceptions.md R273,
20_memory.md R78). A response that a request from before a reset still awaits is none of these (log 5). -/
def spurious (s : State) : Bool := (rspNow s).isSome && !awaiting s && decide (s.stale = 0)

/-- The abandoned requests left unanswered after the tick: a reset abandons the request that waits, and a response
that no call waits for answers one of them (70_reset_and_hazards.md R291, log 5). -/
def staleAfter (s : State) : Nat :=
  match awaiting s, rspNow s with
  | true, none => if rstNow s then s.stale + 1 else s.stale
  | true, some _ => s.stale
  | false, none => s.stale
  | false, some _ => s.stale - 1

/-- The ticks a `goto` loads into TMR, for a wait phase (40_sequencer.md R132). -/
def timerLoad (p : Phase) (c : Config) : Option (BitVec 32) :=
  match p with
  | .ldLowWait | .ldHighWait | .ckHighWait | .ckLowWait => some c.nSettle
  | .cadenceWait => some c.nCadence
  | .idle | .iCfgSdata | .iCfgLoad | .iCfgClk | .iIdleLoad | .iIdleClk | .ldFall | .ldRise | .smp | .ckRise
  | .ckFall | .capture | .rel => none

/-- The outputs of the pin request port (20_memory.md R70). -/
structure PinPort where
  valid : Bool
  op : BitVec 3
  pin : PinId
  arg : BitVec 2
  deriving DecidableEq, Repr

/-- The request of the tick: presented in the ISSUE tick of a call phase and not while `rst` is 1
(40_sequencer.md R133, 70_reset_and_hazards.md R290 d). -/
def requestNow (s : State) : Option PinReq :=
  if rstNow s then none
  else
    match s.callst with
    | .wait => none
    | .issue =>
      match phaseOfCode s.seq with
      | none => none
      | some p => phaseRequest p s

/-- The request port in the tick that starts in `s` (40_sequencer.md R133, 30_encoding.md R106). -/
def pinPort (s : State) : PinPort :=
  match requestNow s with
  | some r => { valid := true, op := pinOpCode r.op, pin := r.pin, arg := r.arg }
  | none => { valid := false, op := 0#3, pin := 0#8, arg := 0#2 }

end Sys2Proof.Machine
end

