-- ==== Sys2Proof/Machine/Ops.lean ====
section
/-! DEFINITION. The shared operations of the sequencer: `goto`, the call and wait primitives, the end of a
sequence, command rejection, fatal faults (`fatal`, the block's one way to take an exception) and the
teardown that ends one (`relDone`). -/

namespace Sys2Proof.Machine

/-- `goto PH`, with the timer load of a wait phase (40_sequencer.md R121, R132). -/
def goto (p : Phase) (s : State) : State :=
  { s with seq := phaseCode p, callst := .issue, tmr := (timerLoad p s.build).getD s.tmr }

/-- `endSeq()` (40_sequencer.md R135). -/
def endSeq (s : State) : State :=
  { s with seq := phaseCode .idle, callst := .issue, curOp := none, loopMode := false, done := true }

/-- `reject(code)` (60_exceptions.md R252). -/
def reject (code : RejCode) (s : State) : State := { s with rej := code }

/-- Which fatal fault: the ERR code and the teardown reason it records (60_exceptions.md R256). -/
inductive FatalKind where
  | initialization | hardwareFault
  deriving DecidableEq, Repr

/-- The ERR code of a fatal fault. -/
def fatalErr : FatalKind → ErrCode
  | .initialization => .initialization
  | .hardwareFault => .hardwareFault

/-- The teardown reason of a fatal fault. -/
def fatalTdr : FatalKind → Tdr
  | .initialization => .initFail
  | .hardwareFault => .fault

/-- `fatal(kind, op)`: taking an exception (60_exceptions.md R256, R262). It records the class and the failed
operation and goes to REL; it saves nothing else and changes no mode. -/
def fatal (kind : FatalKind) (op : PinOp) (s : State) : State :=
  goto .rel { s with err := fatalErr kind, faultOp := some op, tdr := fatalTdr kind }

/-- `relDone()`: the end of a teardown, also of one that a fatal fault began (44_teardown.md R234). -/
def relDone (s : State) : State :=
  let s1 :=
    match s.tdr with
    | .released => { s with life := .tornDown, exit := .released }
    | .cancelled => { s with life := .tornDown, exit := .cancelled }
    | .fault => { s with life := .tornDown, exit := .fault }
    | .none | .initFail => s
  endSeq { s1 with cancelPending := false, releasePending := false }

/-- A completed call joins TRACE (10_state.md R49, 40_sequencer.md R128). -/
def logCall (req : PinReq) (fault : Bool) (level : Level) (s : State) : State :=
  { s with trace := s.trace ++ [{ req := req, fault := fault, level := level }] }

/-- The Pin Interface call primitive (40_sequencer.md R128): present the request, hold until the response,
record the call in TRACE and continue. A response in the ISSUE tick is ignored (20_memory.md R78); the tick admits
only a late one there (log 5). -/
def callStep (req : PinReq) (onOk : Level → State → State) (onFault : State → State) (s : State) : State :=
  match s.callst with
  | .issue => { s with callst := .wait }
  | .wait =>
    match rspNow s with
    | none => s
    | some r =>
      if r.fault then onFault (logCall req r.fault r.level s) else onOk r.level (logCall req r.fault r.level s)

/-- A call phase of INIT: a fault is `fatal(INITIALIZATION, op)` (40_sequencer.md R130, 41_init.md R157). -/
def initCall (req : PinReq) (onOk : State → State) (s : State) : State :=
  callStep req (fun _ => onOk) (fatal .initialization req.op) s

/-- A call phase of an acquisition: a fault is `fatal(HARDWARE_FAULT, op)` (40_sequencer.md R130,
60_exceptions.md R257). -/
def acqCall (req : PinReq) (onOk : Level → State → State) (s : State) : State :=
  callStep req onOk (fatal .hardwareFault req.op) s

/-- The timer primitive SETTLE (40_sequencer.md R131). Both of its lines read the TMR of the tick's start. -/
def waitStep (onExpire : State → State) (s : State) : State :=
  let s1 := { s with tmr := s.tmr - 1#32 }
  if s.tmr - 1#32 = 0#32 then onExpire s1 else s1

/-- `startAcq()` (43_acquire.md R191). -/
def startAcq (s : State) : State := goto .ldFall { s with acc := 0#64, bit := 0#7 }

/-- The teardown that a pending CANCEL or RELEASE begins at a boundary, CANCEL first (43_acquire.md R195, R199;
44_teardown.md R232); otherwise `other`. -/
def takePending (other : State → State) (s : State) : State :=
  if s.cancelPending then goto .rel { s with tdr := .cancelled }
  else if s.releasePending then goto .rel { s with tdr := .released }
  else other s

/-- `boundary()` (43_acquire.md R195). -/
def boundary (s : State) : State :=
  takePending (fun s => if s.loopMode then goto .cadenceWait s else endSeq s) s

/-- `ACC[i] <- level` on an accumulator of `wmax` bits (43_acquire.md R192, 10_state.md R44); a write past its
last bit is none (log 10). -/
def accSet (wmax : Nat) (acc : BitVec 64) (i : Nat) (l : Level) : BitVec 64 :=
  if i < wmax then (if l then acc ||| BitVec.twoPow 64 i else acc &&& ~~~(BitVec.twoPow 64 i)) else acc

/-- `ACC[i] <- level` (43_acquire.md R192). -/
def accWrite (i : Nat) (l : Level) (s : State) : State := { s with acc := accSet s.build.wmax.toNat s.acc i l }

/-- Every accepted command sets REJ to NONE before its own effects (40_sequencer.md R125). -/
def accepted (s : State) : State := { s with rej := .none }

/-- The acceptance of a command that starts an acquisition, and of DESCRIBE and INIT, up to its own checks:
`legal` is the column of the current LIFE in 40_sequencer.md R124. BUSY comes before BAD_STATE (R123). -/
def acceptIdle (legal : Bool) (perform : State → Result) (s : State) : Result :=
  if busy s then .next (reject .busy s)
  else if legal then perform (accepted s)
  else .next (reject .badState s)

/-- The acceptance of CANCEL and RELEASE (40_sequencer.md R124): deferred while an acquisition command runs,
immediate when the driver is idle and ACTIVE. -/
def acceptTeardown (deferred immediate : State → State) (s : State) : Result :=
  if busy s then
    if inAcq s then .next (deferred (accepted s)) else .next (reject .busy s)
  else if s.life = .active then .next (immediate (accepted s))
  else .next (reject .badState s)

/-- An immediate teardown: `DONE <- 0; CUR_OP <- op; TDR <- reason; goto REL` (43_acquire.md R201,
44_teardown.md R231). -/
def teardownNow (op : Op) (reason : Tdr) (s : State) : State :=
  goto .rel { s with done := false, curOp := some op, tdr := reason }

/-- What starts an acquisition: `DONE <- 0; CUR_OP <- op; startAcq()` (43_acquire.md R190). -/
def beginAcq (op : Op) (s : State) : State :=
  startAcq { s with done := false, curOp := some op }

/-- Run `f` on a next state; a fault or a refusal stays what it is. -/
def andThen (r : Result) (f : State → Result) : Result :=
  match r with
  | .next s => f s
  | .fault e => .fault e
  | .refused e => .refused e

end Sys2Proof.Machine
end

