-- ==== Sys2Proof/Machine/Bus.lean ====
section
/-! DEFINITION. The host register window (10_state.md R21 to R29, 20_memory.md R60 to R66): which register an
access selects, what a read returns, and what a write to a register other than CMD does. -/

namespace Sys2Proof.Machine

/-- The byte offset of a register in the window (10_state.md R21). -/
def regOffset : HostReg → Nat
  | .cmd => 0x00
  | .status => 0x04
  | .cfgWidth => 0x08
  | .cfgPins => 0x0C
  | .resultLo => 0x10
  | .resultHi => 0x14
  | .params => 0x18
  | .reserved => 0x1C

/-- The register that offset bits 4:2 select (20_memory.md R61). -/
def regAt (offset : Nat) : HostReg :=
  match offset / 4 % 8 with
  | 0 => .cmd
  | 1 => .status
  | 2 => .cfgWidth
  | 3 => .cfgPins
  | 4 => .resultLo
  | 5 => .resultHi
  | 6 => .params
  | _ => .reserved

/-- The platform address of a register (20_memory.md R60, R61). -/
def regAddr (c : Config) (r : HostReg) : Nat := c.sicBase + regOffset r

/-- Where an access of `size` bytes at `addr` goes. -/
inductive Target where
  /-- No byte of it lies in the window: the platform's, not the block's (20_memory.md R67, log 7;
  for size 0, log 24). -/
  | elsewhere
  /-- An aligned 32-bit access to a register. -/
  | reg (r : HostReg)
  /-- Any other access (20_memory.md R63; for size 0, log 24). -/
  | inadmissible
  deriving DecidableEq, Repr

/-- The address decode of the 32-byte window (20_memory.md R61, R63). DESIGN CHOICE (log 24): an access of size 0, which
R63 does not speak of, is inadmissible strictly inside the window and elsewhere at its base. -/
def target (c : Config) (addr size : Nat) : Target :=
  if c.sicBase + 32 ≤ addr ∨ addr + size ≤ c.sicBase then .elsewhere
  else if size = 4 ∧ c.sicBase ≤ addr ∧ (addr - c.sicBase) % 4 = 0 then .reg (regAt (addr - c.sicBase))
  else .inadmissible

/-- The word of CFG_PINS (10_state.md R25). -/
def pinsWord (s : State) : Word := 0#8 ++ s.cfgClk ++ s.cfgLoad ++ s.cfgSdata

/-- `BusRead` of a register (10_state.md R21 to R29). -/
def readReg (r : HostReg) (s : State) : Word :=
  match r with
  | .cmd => 0#32
  | .status => statusWord s
  | .cfgWidth => s.cfgWidth.setWidth 32
  | .cfgPins => pinsWord s
  | .resultLo => s.result.extractLsb' 0 32
  | .resultHi => s.result.extractLsb' 32 32
  | .params => s.build.wmax.setWidth 32
  | .reserved => 0#32

/-- CFG_WIDTH and CFG_PINS are writable: LIFE is not ACTIVE and BUSY is 0 (10_state.md R26). -/
def cfgWritable (s : State) : Bool := decide (s.life ≠ .active) && !busy s

/-- `BusWrite` of a register that holds configuration or ignores writes (20_memory.md R65); CMD is the
command-acceptance procedure's, not this operation's. -/
def writeReg (r : HostReg) (v : Word) (s : State) : State :=
  match r with
  | .cfgWidth => if cfgWritable s then { s with cfgWidth := v.extractLsb' 0 8 } else s
  | .cfgPins =>
    if cfgWritable s then
      { s with cfgSdata := v.extractLsb' 0 8, cfgLoad := v.extractLsb' 8 8, cfgClk := v.extractLsb' 16 8 }
    else s
  | .cmd | .status | .resultLo | .resultHi | .params | .reserved => s

/-- The REJ code of a word that decodes to no command (30_encoding.md R94, 60_exceptions.md R251). -/
def decodeRej : DecodeError → RejCode
  | .illegalOp => .illegalOp
  | .badEncoding => .badEncoding
  | .unusedPhase => .illegalOp

/-- The end of a tick: its inputs are consumed and its read data stands at the port (40_sequencer.md R120,
log 2, log 3). -/
def endTick (rdata : Option Word) (s : State) : State := { s with env := s.env.tail, rdata := rdata }

end Sys2Proof.Machine
end

