-- ==== Sys2Proof/Machine/AcquirePhases.lean ====
section
/-! DEFINITION. Sampling, capture and the cadence of a loop (43_acquire.md). -/

namespace Sys2Proof.Machine

/-- SMP (43_acquire.md R192). -/
def execSmp (s : State) : Result :=
  .next (acqCall (reqRead s) (fun l s => goto .ckRise (accWrite s.bit.toNat l s)) s)

/-- What CAPTURE latches: bit CUR_IDX of ACC for ACQ_BIT, ACC otherwise (43_acquire.md R194). -/
def captured (s : State) : BitVec 64 :=
  if s.curOp = some .acqBit then (BitVec.ofBool (s.acc.getLsbD s.curIdx.toNat)).setWidth 64 else s.acc

/-- CAPTURE (43_acquire.md R194, R195). -/
def execCapture (s : State) : Result :=
  .next (boundary { s with result := captured s, count := s.count + 1#8 })

/-- CADENCE_WAIT (43_acquire.md R199). -/
def execCadenceWait (s : State) : Result := .next (takePending (waitStep startAcq) s)

end Sys2Proof.Machine
end

