-- ==== Sys2Proof/Machine/Commands.lean ====
section
/-! DEFINITION. The seven host commands: check, acceptance and effect of a decoded command
(40_sequencer.md R122 to R125 and each command's rule). -/

namespace Sys2Proof.Machine

/-- INIT's acceptance clears every record of the last lifetime (41_init.md R150). -/
def clearRecords (s : State) : State :=
  { s with done := false, err := .none, exit := .none, faultOp := none, relFault := false, result := 0#64, tdr := .none }

/-- `perform(INIT)` (41_init.md R150, R151); a valid configuration that shares a pin with another agent is
refused (60_exceptions.md R270, log 9). -/
def performInit (s : State) : Result :=
  let s1 := clearRecords s
  if cfgValid s1 then
    if sharesPin s1 then .refused .sharedPin
    else .next (goto .iCfgSdata { s1 with curOp := some .init })
  else .next { s1 with err := .configuration, done := true }

/-- INIT (41_init.md R150): legal unless a lifetime is ACTIVE. -/
def execInit (s : State) : Result :=
  acceptIdle (decide (s.life ≠ .active)) performInit s

/-- ACQ_ALL (43_acquire.md R190). -/
def execAcqAll (s : State) : Result :=
  acceptIdle (decide (s.life = .active)) (fun s => .next (beginAcq .acqAll s)) s

/-- ACQ_BIT (43_acquire.md R196): BAD_OPERAND unless `idx < W`, checked last (40_sequencer.md R123, R124). -/
def execAcqBit (idx : BitVec 7) (s : State) : Result :=
  if busy s then .next (reject .busy s)
  else if s.life = .active then
    if idx.toNat < s.cfgWidth.toNat then .next (beginAcq .acqBit { accepted s with curIdx := idx.setWidth 6 })
    else .next (reject .badOperand s)
  else .next (reject .badState s)

/-- ACQ_LOOP (43_acquire.md R198). -/
def execAcqLoop (s : State) : Result :=
  acceptIdle (decide (s.life = .active)) (fun s => .next (beginAcq .acqLoop { s with loopMode := true })) s

/-- A deferred CANCEL: `CANCEL_PENDING <- 1` (43_acquire.md R202). -/
def deferCancel (s : State) : State := { s with cancelPending := true }

/-- A deferred RELEASE: `RELEASE_PENDING <- 1` (44_teardown.md R232). -/
def deferRelease (s : State) : State := { s with releasePending := true }

/-- CANCEL (43_acquire.md R200 to R202). -/
def execCancel (s : State) : Result :=
  acceptTeardown deferCancel (teardownNow .cancel .cancelled) s

/-- DESCRIBE's result `zext_64({CLK, LOAD, SDATA, WIDTH})` (44_teardown.md R236, R237). -/
def describeWord (s : State) : BitVec 64 :=
  (s.cfgClk ++ s.cfgLoad ++ s.cfgSdata ++ s.cfgWidth).setWidth 64

/-- DESCRIBE (44_teardown.md R236): legal in every LIFE. -/
def execDescribe (s : State) : Result :=
  acceptIdle true (fun s => .next { s with result := describeWord s, done := true }) s

/-- RELEASE (44_teardown.md R230 to R232). -/
def execRelease (s : State) : Result :=
  acceptTeardown deferRelease (teardownNow .release .released) s

end Sys2Proof.Machine
end

