-- ==== Sys2Proof/Machine/InitPhases.lean ====
section
/-! DEFINITION. IDLE and the five phases of INIT (40_sequencer.md R127, 41_init.md R152 to R157). -/

namespace Sys2Proof.Machine

/-- IDLE: no state changes, and a response is ignored (40_sequencer.md R127). -/
def execIdle (s : State) : Result := .next s

/-- I_CFG_SDATA (41_init.md R152). -/
def execICfgSdata (s : State) : Result := .next (initCall (reqCfgSdata s) (goto .iCfgLoad) s)

/-- I_CFG_LOAD (41_init.md R153). -/
def execICfgLoad (s : State) : Result := .next (initCall (reqCfgOut s.cfgLoad) (goto .iCfgClk) s)

/-- I_CFG_CLK (41_init.md R154). -/
def execICfgClk (s : State) : Result := .next (initCall (reqCfgOut s.cfgClk) (goto .iIdleLoad) s)

/-- I_IDLE_LOAD (41_init.md R155). -/
def execIIdleLoad (s : State) : Result := .next (initCall (reqWrite s.cfgLoad true) (goto .iIdleClk) s)

/-- I_IDLE_CLK: the only phase that makes the driver ACTIVE (41_init.md R156). -/
def execIIdleClk (s : State) : Result :=
  .next (initCall (reqWrite s.cfgClk false) (fun s => endSeq { s with life := .active }) s)

end Sys2Proof.Machine
end

