-- ==== Sys2Proof/Machine/PulsePhases.lean ====
section
/-! DEFINITION. The load pulse and the clock pulse (42_pulses.md). -/

namespace Sys2Proof.Machine

/-- LD_FALL (42_pulses.md R171). -/
def execLdFall (s : State) : Result := .next (acqCall (reqWrite s.cfgLoad false) (fun _ => goto .ldLowWait) s)

/-- LD_LOW_WAIT (42_pulses.md R172). -/
def execLdLowWait (s : State) : Result := .next (waitStep (goto .ldRise) s)

/-- LD_RISE (42_pulses.md R173). -/
def execLdRise (s : State) : Result := .next (acqCall (reqWrite s.cfgLoad true) (fun _ => goto .ldHighWait) s)

/-- LD_HIGH_WAIT (42_pulses.md R174). -/
def execLdHighWait (s : State) : Result := .next (waitStep (goto .smp) s)

/-- CK_RISE (42_pulses.md R176). -/
def execCkRise (s : State) : Result := .next (acqCall (reqWrite s.cfgClk true) (fun _ => goto .ckHighWait) s)

/-- CK_HIGH_WAIT (42_pulses.md R177). -/
def execCkHighWait (s : State) : Result := .next (waitStep (goto .ckFall) s)

/-- CK_FALL (42_pulses.md R178). -/
def execCkFall (s : State) : Result := .next (acqCall (reqWrite s.cfgClk false) (fun _ => goto .ckLowWait) s)

/-- The next shift position, or CAPTURE after the last one (42_pulses.md R179). The comparison is on the exact
`BIT + 1` (log 11). -/
def nextBit (s : State) : State :=
  goto (if s.bit.toNat + 1 < s.cfgWidth.toNat then .smp else .capture) { s with bit := s.bit + 1#7 }

/-- CK_LOW_WAIT (42_pulses.md R179). -/
def execCkLowWait (s : State) : Result := .next (waitStep nextBit s)

end Sys2Proof.Machine
end

