-- ==== Sys2Proof/Machine/TeardownPhases.lean ====
section
/-! DEFINITION. REL, the phase of every teardown (44_teardown.md R233). -/

namespace Sys2Proof.Machine

/-- REL (44_teardown.md R233): a faulting RELEASE sets RELFAULT and completes all the same
(60_exceptions.md R258). -/
def execRel (s : State) : Result :=
  .next (callStep reqRelease (fun _ => relDone) (fun s => relDone { s with relFault := true }) s)

end Sys2Proof.Machine
end

