-- ==== Sys2Proof/Machine/Dispatch.lean ====
section
/-! DEFINITION. The meaning of every instruction, one arm per constructor of Instr. -/

namespace Sys2Proof.Machine

def exec (i : Instr) (s : State) : Host.Outcome State Fault Refusal :=
  match i with
  | .init => Sys2Proof.Machine.execInit s
  | .acqAll => Sys2Proof.Machine.execAcqAll s
  | .acqBit idx => Sys2Proof.Machine.execAcqBit idx s
  | .acqLoop => Sys2Proof.Machine.execAcqLoop s
  | .cancel => Sys2Proof.Machine.execCancel s
  | .describe => Sys2Proof.Machine.execDescribe s
  | .release => Sys2Proof.Machine.execRelease s
  | .idle => Sys2Proof.Machine.execIdle s
  | .iCfgSdata => Sys2Proof.Machine.execICfgSdata s
  | .iCfgLoad => Sys2Proof.Machine.execICfgLoad s
  | .iCfgClk => Sys2Proof.Machine.execICfgClk s
  | .iIdleLoad => Sys2Proof.Machine.execIIdleLoad s
  | .iIdleClk => Sys2Proof.Machine.execIIdleClk s
  | .ldFall => Sys2Proof.Machine.execLdFall s
  | .ldLowWait => Sys2Proof.Machine.execLdLowWait s
  | .ldRise => Sys2Proof.Machine.execLdRise s
  | .ldHighWait => Sys2Proof.Machine.execLdHighWait s
  | .smp => Sys2Proof.Machine.execSmp s
  | .ckRise => Sys2Proof.Machine.execCkRise s
  | .ckHighWait => Sys2Proof.Machine.execCkHighWait s
  | .ckFall => Sys2Proof.Machine.execCkFall s
  | .ckLowWait => Sys2Proof.Machine.execCkLowWait s
  | .capture => Sys2Proof.Machine.execCapture s
  | .cadenceWait => Sys2Proof.Machine.execCadenceWait s
  | .rel => Sys2Proof.Machine.execRel s

end Sys2Proof.Machine
end

