-- ==== Sys2Proof/Machine/Tick.lean ====
section
/-! DEFINITION. One tick (40_sequencer.md R120): the sequencer's step, then the host access; or reset
(70_reset_and_hazards.md R290). A response that answers no request has no tick (60_exceptions.md R273). -/

namespace Sys2Proof.Machine

/-- `seqStep`: run the phase that SEQ selects; an unused code is refused (40_sequencer.md R126,
30_encoding.md R101). -/
def seqStep (s : State) : Result :=
  match decodePhase s.seq with
  | .ok i => exec i s
  | .error _ => .refused (.unusedPhase s.seq)

/-- `accept`: a CMD write (40_sequencer.md R122). -/
def acceptWord (v : Word) (s : State) : Result :=
  match decodeCommand v with
  | .ok i => exec i s
  | .error e => .next (reject (decodeRej e) s)

/-- A write to a register (10_state.md R21, R22). -/
def busWrite (r : HostReg) (v : Word) (s : State) : Result :=
  match r with
  | .cmd => acceptWord v s
  | .status => .next (writeReg .status v s)
  | .cfgWidth => .next (writeReg .cfgWidth v s)
  | .cfgPins => .next (writeReg .cfgPins v s)
  | .resultLo => .next (writeReg .resultLo v s)
  | .resultHi => .next (writeReg .resultHi v s)
  | .params => .next (writeReg .params v s)
  | .reserved => .next (writeReg .reserved v s)

/-- `busAccess`, the host half of the tick, and the end of the tick; an inadmissible access has no step
(20_memory.md R60, R63). `write` is what a write to a register does. -/
def busAccess (write : HostReg → Word → State → Result) (s : State) : Result :=
  match accNow s with
  | none => .next (endTick none s)
  | some (.read addr size) =>
    match target s.build addr size with
    | .elsewhere => .next (endTick none s)
    | .reg r => .next (endTick (some (readReg r s)) s)
    | .inadmissible => .refused .badAccess
  | some (.write addr size v) =>
    match target s.build addr size with
    | .elsewhere => .next (endTick none s)
    | .reg r => andThen (write r v s) (fun s1 => .next (endTick none s1))
    | .inadmissible => .refused .badAccess

/-- A tick with `rst` 1 (70_reset_and_hazards.md R290): every register takes its reset value, the sequencer does
not step, a write has no effect and a read returns the reset value. TRACE starts empty (10_state.md R49,
log 8). -/
def resetTick (s : State) : Result :=
  busAccess (fun _ _ s1 => .next s1) (State.ofReset s.build s.env none)

/-- What a tick does to the block: reset, or the phase and then the host access (40_sequencer.md R120). -/
def blockTick (s : State) : Result :=
  if rstNow s then resetTick s else andThen (seqStep s) (busAccess busWrite)

/-- The count of abandoned requests becomes `n`. -/
def setStale (n : Nat) (s : State) : State := { s with stale := n }

/-- One tick. A response that answers no request is refused (60_exceptions.md R273, log 5). DESIGN CHOICE (log 23): this
is checked first, so also in a tick with `rst` 1, though 60_exceptions.md R260 lets reset override everything. -/
def tick (s : State) : Result :=
  if spurious s then .refused .spuriousResponse
  else andThen (blockTick s) (fun t => .next (setStale (staleAfter s) t))

/-- The inputs with the CMD write of `v` as this tick's host access and `rst` 0 (log 14). -/
def withCommand (v : Word) (s : State) : State :=
  { s with env :=
      { rst := false, rsp := rspNow s, acc := some (.write (regAddr s.build .cmd) 4 v) } :: s.env.tail }

/-- SEQ holding the code `c`, with no reset and no host access in this tick (log 14). -/
def withPhase (c : BitVec 5) (s : State) : State :=
  { s with
    seq := c
    env :=
      match s.env with
      | [] => []
      | t :: ts => { rst := false, rsp := t.rsp, acc := none } :: ts }

/-- The inputs without a response that this tick would be refused for (log 14). -/
def withoutSpurious (s : State) : State :=
  if spurious s then { s with env := { rst := rstNow s, rsp := none, acc := accNow s } :: s.env.tail } else s

/-- The encoded instruction placed where the tick takes its next one. -/
def withEncoded : Encoded → State → State
  | .cmd v, s => withoutSpurious (withCommand v s)
  | .uop c, s => withoutSpurious (withPhase c s)

end Sys2Proof.Machine
end

