-- ==== Sys2Proof/Machine/Step.lean ====
section
/-! DEFINITION. The step of the machine: one tick. -/

namespace Sys2Proof.Machine

/-- One step is one tick of the block (40_sequencer.md R120, log 4). -/
def step (s : State) : Host.Outcome State Fault Refusal := tick s

/-- `s` with the instruction of an opcode-table row placed where the next step takes it: a phase code in SEQ, a
command word as the tick's CMD write (log 14). -/
def State.withFetchWord (s : State) (nbits w : Nat) : State :=
  match tableEncoded nbits w with
  | some e => withEncoded e s
  | none => s

end Sys2Proof.Machine
end

