-- ==== Sys2Proof/Safety.lean ====
section
/-! DEFINITION. The terms in which claims speak of runs: the invariants of the block (10_state.md section 7 and
the derived facts of the other files), the history of pin calls, and the inputs of timed claims. None
of it is part of the machine. -/

namespace Sys2Proof.Safety

open Sys2Proof Sys2Proof.Machine

/-! ### Kinds of phases (30_encoding.md R100) -/

/-- An init phase, I_CFG_SDATA to I_IDLE_CLK. -/
def initPhase : Phase → Bool
  | .iCfgSdata | .iCfgLoad | .iCfgClk | .iIdleLoad | .iIdleClk => true
  | .idle | .ldFall | .ldLowWait | .ldRise | .ldHighWait | .smp | .ckRise | .ckHighWait | .ckFall | .ckLowWait
  | .capture | .cadenceWait | .rel => false

/-- An acquisition phase, LD_FALL to CADENCE_WAIT. -/
def acqPhase : Phase → Bool
  | .ldFall | .ldLowWait | .ldRise | .ldHighWait | .smp | .ckRise | .ckHighWait | .ckFall | .ckLowWait
  | .capture | .cadenceWait => true
  | .idle | .iCfgSdata | .iCfgLoad | .iCfgClk | .iIdleLoad | .iIdleClk | .rel => false

/-- A settle-wait phase. -/
def settlePhase : Phase → Bool
  | .ldLowWait | .ldHighWait | .ckHighWait | .ckLowWait => true
  | .idle | .iCfgSdata | .iCfgLoad | .iCfgClk | .iIdleLoad | .iIdleClk | .ldFall | .ldRise | .smp | .ckRise
  | .ckFall | .capture | .cadenceWait | .rel => false

/-- A quiescent state: SEQ is IDLE and the coming inputs hold no host access (40_sequencer.md R139), and no reset:
DESIGN CHOICE (log 22), R139 does not speak of a reset still to come. -/
def quiescent (s : State) : Bool :=
  decide (s.seq = 0x00#5) && s.env.all (fun t => !t.rst && t.acc.isNone)

/-- A state that some instance with legal parameters reaches from reset under some inputs. -/
def Reachable (s : State) : Prop :=
  ∃ (build : Config) (env : List TickIn) (n : Nat),
    build.wf = true ∧ Sys2Proof.core.run n (State.ofReset build env none) = .next s

/-- `cfgValid(W, P)` of 41_init.md R151, written out. -/
abbrev ConfigOk (s : State) : Prop :=
  1 ≤ s.cfgWidth.toNat ∧ s.cfgWidth.toNat ≤ s.build.wmax.toNat ∧
  s.cfgSdata ∈ s.build.validPins ∧ s.cfgLoad ∈ s.build.validPins ∧ s.cfgClk ∈ s.build.validPins ∧
  s.cfgSdata ≠ s.cfgLoad ∧ s.cfgSdata ≠ s.cfgClk ∧ s.cfgLoad ≠ s.cfgClk

/-- No configured pin is another agent's (60_exceptions.md R270). -/
abbrev PinsFree (s : State) : Prop :=
  s.cfgSdata ∉ s.build.sharedPins ∧ s.cfgLoad ∉ s.build.sharedPins ∧ s.cfgClk ∉ s.build.sharedPins

/-! ### The invariant of every reachable state (10_state.md R53) -/

/-- CUR_OP is one of the three acquisition commands. -/
def acqOp (s : State) : Prop :=
  s.curOp = some .acqAll ∨ s.curOp = some .acqBit ∨ s.curOp = some .acqLoop

/-- What holds in every acquisition phase. -/
def AcqInv (s : State) : Prop :=
  s.life = .active ∧ acqOp s ∧ (s.curOp = some .acqBit → s.curIdx.toNat < s.cfgWidth.toNat)

/-- The reason of a teardown agrees with the lifecycle: a lifetime is torn down, or a failed INIT. -/
def TeardownInv (s : State) : Prop :=
  ((s.tdr = .released ∨ s.tdr = .cancelled ∨ s.tdr = .fault) ∧ s.life = .active) ∨
  (s.tdr = .initFail ∧ s.life ≠ .active)

/-- What holds in each phase: R53, strengthened by the ranges of BIT, ACC and TMR that make it inductive. -/
def PhaseInv (p : Phase) (s : State) : Prop :=
  match p with
  | .idle => s.curOp = none ∧ s.loopMode = false ∧ s.cancelPending = false ∧ s.releasePending = false
  | .iCfgSdata | .iCfgLoad | .iCfgClk | .iIdleLoad | .iIdleClk =>
    s.curOp = some .init ∧ s.life ≠ .active ∧ cfgValid s = true ∧ s.cancelPending = false ∧ s.releasePending = false
  | .ldFall | .ldRise => AcqInv s ∧ s.bit = 0#7 ∧ s.acc = 0#64
  | .ldLowWait | .ldHighWait => AcqInv s ∧ s.bit = 0#7 ∧ s.acc = 0#64 ∧ s.tmr ≠ 0#32
  | .smp => AcqInv s ∧ s.bit.toNat < s.cfgWidth.toNat ∧ s.acc.toNat < 2 ^ s.bit.toNat
  | .ckRise | .ckFall => AcqInv s ∧ s.bit.toNat < s.cfgWidth.toNat ∧ s.acc.toNat < 2 ^ (s.bit.toNat + 1)
  | .ckHighWait | .ckLowWait =>
    AcqInv s ∧ s.bit.toNat < s.cfgWidth.toNat ∧ s.acc.toNat < 2 ^ (s.bit.toNat + 1) ∧ s.tmr ≠ 0#32
  | .capture => AcqInv s ∧ s.bit.toNat = s.cfgWidth.toNat ∧ s.acc.toNat < 2 ^ s.bit.toNat
  | .cadenceWait =>
    AcqInv s ∧ s.loopMode = true ∧ s.bit.toNat = s.cfgWidth.toNat ∧ s.acc.toNat < 2 ^ s.bit.toNat ∧ s.tmr ≠ 0#32
  | .rel => s.curOp ≠ none ∧ TeardownInv s

/-- The invariant of the machine: legal build parameters, a used phase code and what its phase demands, a loop
only under ACQ_LOOP (10_state.md R33), and a valid configuration while a lifetime is ACTIVE (R26). -/
structure MachineInv (s : State) : Prop where
  build : s.build.wf = true
  loop : s.loopMode = true → s.curOp = some .acqLoop
  active : s.life = .active → cfgValid s = true
  phase : ∃ p, phaseOfCode s.seq = some p ∧ PhaseInv p s

/-! ### The levels of the control lines (10_state.md R54) -/

/-- The level of the last successful WRITE to a pin in a history, none if there is none. -/
def lastLevel (pin : PinId) (calls : List PinCall) : Option Level :=
  calls.foldl
    (fun l c => if c.req.op = .write ∧ c.req.pin = pin ∧ c.fault = false then some (c.req.arg.getLsbD 0) else l) none

/-- The last successful WRITEs to LOAD and CLK had these levels. -/
def lines (load clk : Level) (s : State) : Prop :=
  lastLevel s.cfgLoad s.trace = some load ∧ lastLevel s.cfgClk s.trace = some clk

/-- The levels of the control lines in each phase. -/
def LineAt (p : Phase) (s : State) : Prop :=
  match p with
  | .idle => s.life = .active → lines true false s
  | .iCfgSdata | .iCfgLoad | .iCfgClk | .iIdleLoad => True
  | .iIdleClk => lastLevel s.cfgLoad s.trace = some true
  | .ldFall | .ldHighWait | .smp | .ckRise | .ckLowWait | .capture | .cadenceWait => lines true false s
  | .ldLowWait | .ldRise => lines false false s
  | .ckHighWait | .ckFall => lines true true s
  | .rel => s.tdr = .released ∨ s.tdr = .cancelled → lines true false s

/-- The control lines are at the levels of the phase that SEQ holds. -/
def LineInv (s : State) : Prop := ∀ p, phaseOfCode s.seq = some p → LineAt p s

/-! ### The calls of an acquisition (43_acquire.md R203, R206) -/

/-- What an entry of TRACE shows: its request, its fault bit, and for a READ its level. -/
def shape (c : PinCall) : PinReq × Bool × Option Level :=
  (c.req, c.fault, if c.req.op = .read then some c.level else none)

/-- A successful `WRITE(pin, level)`. -/
def wrote (pin : PinId) (l : Level) : PinReq × Bool × Option Level :=
  ({ op := .write, pin := pin, arg := if l then 1#2 else 0#2 }, false, none)

/-- A successful `READ(SDATA)` that returned bit `i` of `acc`. -/
def sampled (s : State) (acc : BitVec 64) (i : Nat) : PinReq × Bool × Option Level :=
  ({ op := .read, pin := s.cfgSdata, arg := 0#2 }, false, some (acc.getLsbD i))

/-- The load pulse's calls. -/
def loadCalls (s : State) : List (PinReq × Bool × Option Level) := [wrote s.cfgLoad false, wrote s.cfgLoad true]

/-- The calls of shift position `i`: sample, then pulse. -/
def bitCalls (s : State) (acc : BitVec 64) (i : Nat) : List (PinReq × Bool × Option Level) :=
  [sampled s acc i, wrote s.cfgClk true, wrote s.cfgClk false]

/-- The calls of an acquisition of which `n` shift positions are complete. -/
def acqCalls (s : State) (acc : BitVec 64) (n : Nat) : List (PinReq × Bool × Option Level) :=
  loadCalls s ++ (List.range n).flatMap (bitCalls s acc)

/-- The calls of an acquisition of `n` shift positions whose `i`-th READ returned `lv i`, as 43_acquire.md R206 lists
them. -/
def acqShapes (s : State) (lv : Nat → Level) (n : Nat) : List (PinReq × Bool × Option Level) :=
  [wrote s.cfgLoad false, wrote s.cfgLoad true] ++
    (List.range n).flatMap fun i =>
      [({ op := .read, pin := s.cfgSdata, arg := 0#2 }, false, some (lv i)), wrote s.cfgClk true, wrote s.cfgClk false]

/-- The calls of a successful INIT (41_init.md R158). -/
def initShapes (s : State) : List (PinReq × Bool × Option Level) :=
  [({ op := .cfgIn, pin := s.cfgSdata, arg := 1#2 }, false, none),
   ({ op := .cfgOut, pin := s.cfgLoad, arg := 0#2 }, false, none),
   ({ op := .cfgOut, pin := s.cfgClk, arg := 0#2 }, false, none),
   wrote s.cfgLoad true, wrote s.cfgClk false]

/-- The calls the running acquisition has completed, by phase and BIT. -/
def callsSoFar (p : Phase) (s : State) : List (PinReq × Bool × Option Level) :=
  match p with
  | .ldLowWait | .ldRise => [wrote s.cfgLoad false]
  | .ldHighWait => loadCalls s
  | .smp | .capture | .cadenceWait => acqCalls s s.acc s.bit.toNat
  | .ckRise => acqCalls s s.acc s.bit.toNat ++ [sampled s s.acc s.bit.toNat]
  | .ckHighWait | .ckFall =>
    acqCalls s s.acc s.bit.toNat ++ [sampled s s.acc s.bit.toNat, wrote s.cfgClk true]
  | .ckLowWait => acqCalls s s.acc s.bit.toNat ++ bitCalls s s.acc s.bit.toNat
  | .idle | .iCfgSdata | .iCfgLoad | .iCfgClk | .iIdleLoad | .iIdleClk | .ldFall | .rel => []

/-- In an acquisition phase TRACE ends with exactly the calls of the running acquisition, and bit `i` of ACC is
the level its `i`-th READ returned. -/
def TraceInv (s : State) : Prop :=
  ∀ p, phaseOfCode s.seq = some p → acqPhase p = true →
    ∃ before calls, s.trace = before ++ calls ∧ calls.map shape = callsSoFar p s

/-! ### One release per lifetime (44_teardown.md R235) -/

/-- The beginnings (CFG_IN, true) and ends (RELEASE, false) of configurations in a history. -/
def marks (calls : List PinCall) : List Bool :=
  calls.filterMap fun c =>
    match c.req.op with
    | .cfgIn => some true
    | .release => some false
    | .cfgOut | .write | .read => none

/-- As far as the calls since the last reset go, the pins are configured, in part at least: a CFG_IN has been answered
and no RELEASE after it. After a reset it is false, though the pins may still be configured from before
(70_reset_and_hazards.md R291). -/
def configured (s : State) : Bool :=
  decide (s.life = .active) || decide (s.seq = 0x02#5) || decide (s.seq = 0x03#5) || decide (s.seq = 0x04#5) ||
  decide (s.seq = 0x05#5) || decide (s.seq = 0x13#5)

/-- In the calls since the last reset, which empties TRACE (10_state.md R49, log 8), every CFG_IN is followed by
exactly one RELEASE before the next CFG_IN, but for the last one while the driver is `configured`. -/
def MarkInv (s : State) : Prop :=
  ∃ k, marks s.trace = (List.replicate k [true, false]).flatten ++ (if configured s then [true] else [])

/-! ### Tables of the spec, written out for the claims -/

/-- The rejection of a decoded command by the table of 40_sequencer.md R124, none if it is accepted; none also for a
phase, which is no command. -/
def rejectionOf (i : Instr) (s : State) : Option RejCode :=
  let isBusy := s.seq ≠ 0x00#5
  let deferrable :=
    (s.curOp = some .acqAll ∨ s.curOp = some .acqBit ∨ s.curOp = some .acqLoop) ∧ s.seq ≠ 0x13#5
  match i with
  | .init => if isBusy then some .busy else if s.life = .active then some .badState else none
  | .acqAll | .acqLoop => if isBusy then some .busy else if s.life = .active then none else some .badState
  | .acqBit idx =>
    if isBusy then some .busy
    else if s.life ≠ .active then some .badState
    else if s.cfgWidth.toNat ≤ idx.toNat then some .badOperand
    else none
  | .cancel | .release =>
    if isBusy then (if deferrable then none else some .busy)
    else if s.life = .active then none
    else some .badState
  | .describe => if isBusy then some .busy else none
  | .idle | .iCfgSdata | .iCfgLoad | .iCfgClk | .iIdleLoad | .iIdleClk | .ldFall | .ldLowWait | .ldRise | .ldHighWait
  | .smp | .ckRise | .ckHighWait | .ckFall | .ckLowWait | .capture | .cadenceWait | .rel => none

/-- The request columns of 30_encoding.md R100, by phase code. -/
def requestTable (code : Nat) (s : State) : Option (BitVec 3 × PinId × BitVec 2) :=
  match code with
  | 0x01 => some (1#3, s.cfgSdata, 1#2)
  | 0x02 => some (2#3, s.cfgLoad, 0#2)
  | 0x03 => some (2#3, s.cfgClk, 0#2)
  | 0x04 => some (3#3, s.cfgLoad, 1#2)
  | 0x05 => some (3#3, s.cfgClk, 0#2)
  | 0x08 => some (3#3, s.cfgLoad, 0#2)
  | 0x0A => some (3#3, s.cfgLoad, 1#2)
  | 0x0C => some (4#3, s.cfgSdata, 0#2)
  | 0x0D => some (3#3, s.cfgClk, 1#2)
  | 0x0F => some (3#3, s.cfgClk, 0#2)
  | 0x13 => some (5#3, 0#8, 0#2)
  | _ => none

/-- The phases a phase's own step may lead to: itself and its successors in the graph of 40_sequencer.md R136. -/
def successors (code : Nat) : List Nat :=
  match code with
  | 0x00 => [0x00]
  | 0x01 => [0x01, 0x02, 0x13]
  | 0x02 => [0x02, 0x03, 0x13]
  | 0x03 => [0x03, 0x04, 0x13]
  | 0x04 => [0x04, 0x05, 0x13]
  | 0x05 => [0x05, 0x00, 0x13]
  | 0x08 => [0x08, 0x09, 0x13]
  | 0x09 => [0x09, 0x0A]
  | 0x0A => [0x0A, 0x0B, 0x13]
  | 0x0B => [0x0B, 0x0C]
  | 0x0C => [0x0C, 0x0D, 0x13]
  | 0x0D => [0x0D, 0x0E, 0x13]
  | 0x0E => [0x0E, 0x0F]
  | 0x0F => [0x0F, 0x10, 0x13]
  | 0x10 => [0x10, 0x0C, 0x11]
  | 0x11 => [0x00, 0x12, 0x13]
  | 0x12 => [0x12, 0x08, 0x13]
  | 0x13 => [0x13, 0x00]
  | _ => []

/-- What a read at a byte offset of the window returns (10_state.md R21 to R29), as a number. -/
def readTable (offset : Nat) (s : State) : Nat :=
  match offset with
  | 0x04 => (statusWord s).toNat
  | 0x08 => s.cfgWidth.toNat
  | 0x0C => s.cfgSdata.toNat + 2 ^ 8 * s.cfgLoad.toNat + 2 ^ 16 * s.cfgClk.toNat
  | 0x10 => s.result.toNat % 2 ^ 32
  | 0x14 => s.result.toNat / 2 ^ 32
  | 0x18 => s.build.wmax.toNat
  | _ => 0

/-- The instructions of the call phases. -/
def callInstrs : List Instr :=
  [.iCfgSdata, .iCfgLoad, .iCfgClk, .iIdleLoad, .iIdleClk, .ldFall, .ldRise, .smp, .ckRise, .ckFall, .rel]

/-- The host access of the tick is a CMD write of a word that decodes to `i`. -/
def writesCommand (i : Instr) (s : State) : Prop :=
  ∃ v, accNow s = some (.write s.build.sicBase 4 v) ∧ decode (.cmd v) = .ok i

/-! ### Inputs for timed claims -/

/-- `n` ticks without any input. -/
def quietTicks (n : Nat) : List TickIn := List.replicate n { rst := false, rsp := none, acc := none }

/-- The inputs of a call phase whose request is answered, without a fault, `latency` ticks after it. -/
def callTicks (latency : Nat) (l : Level) : List TickIn :=
  quietTicks latency ++ [{ rst := false, rsp := some { fault := false, level := l }, acc := none }]

/-- The inputs of shift position `i`. -/
def bitTicks (n latency : Nat) (lv : Nat → Level) (i : Nat) : List TickIn :=
  callTicks latency (lv i) ++ callTicks latency false ++ quietTicks n ++ callTicks latency false ++ quietTicks n

/-- The inputs of a whole acquisition of `w` positions with settle waits of `n` ticks, every call answered after
`latency` ticks, the `i`-th READ with level `lv i`, up to and including the tick of CAPTURE. -/
def acqTicks (w n latency : Nat) (lv : Nat → Level) : List TickIn :=
  callTicks latency false ++ quietTicks n ++ callTicks latency false ++ quietTicks n ++
    (List.range w).flatMap (bitTicks n latency lv) ++ quietTicks 1

end Sys2Proof.Safety
end

