-- ==== Sys2Proof/Certificates/Slice0/Obligations.lean ====
section
/-! DEFINITION. The statements for the provers. Each cites the rule of spec/ it comes from; a convention of the
model that a statement rests on is named with its log entry. -/

open Sys2Proof Sys2Proof.Machine Sys2Proof.Safety

/-! ### Encodings (30_encoding.md) -/

/-- The encoder and the decoder are inverse: every well-formed instruction decodes from its encoding, and every
encoding that decodes is the encoding of the well-formed instruction it decodes to (R90 to R94, R100, R101). -/
def Obligations.DecodeInvertsEncode : Prop :=
  (∀ i : Instr, i.wf = true → decode (encode i) = .ok i) ∧
  (∀ (e : Encoded) (i : Instr), decode e = .ok i → i.wf = true ∧ encode i = e)

/-- R94, R95 and R253, for a word written to CMD in any state: an OP field of 0 or 8 to 15 is rejected ILLEGAL_OP; an
assigned OP with a reserved bit set is rejected BAD_ENCODING; every other word runs its command. A rejected word
changes only REJ. -/
def Obligations.CommandWordDecoded : Prop :=
  ∀ (v : Word) (s : State) (op idx : Nat), op = v.toNat % 16 → idx = v.toNat / 256 % 64 →
    let reserved := v &&& (if op = 3 then 0xFFFFC0F0#32 else 0xFFFFFFF0#32)
    (op = 0 ∨ 8 ≤ op → busWrite .cmd v s = .next { s with rej := .illegalOp }) ∧
    (1 ≤ op ∧ op ≤ 7 ∧ reserved ≠ 0#32 → busWrite .cmd v s = .next { s with rej := .badEncoding }) ∧
    (op = 1 ∧ reserved = 0#32 → busWrite .cmd v s = exec .init s) ∧
    (op = 2 ∧ reserved = 0#32 → busWrite .cmd v s = exec .acqAll s) ∧
    (op = 3 ∧ reserved = 0#32 → busWrite .cmd v s = exec (.acqBit (BitVec.ofNat 7 idx)) s) ∧
    (op = 4 ∧ reserved = 0#32 → busWrite .cmd v s = exec .acqLoop s) ∧
    (op = 5 ∧ reserved = 0#32 → busWrite .cmd v s = exec .cancel s) ∧
    (op = 6 ∧ reserved = 0#32 → busWrite .cmd v s = exec .describe s) ∧
    (op = 7 ∧ reserved = 0#32 → busWrite .cmd v s = exec .release s)

/-- R111: the words of every command, as the encoder writes them and as the decoder reads them. -/
def Obligations.CommandWordsOfTheSpec : Prop :=
  encode .init = .cmd 0x00000001#32 ∧
  encode .acqAll = .cmd 0x00000002#32 ∧
  encode .acqLoop = .cmd 0x00000004#32 ∧
  encode .cancel = .cmd 0x00000005#32 ∧
  encode .describe = .cmd 0x00000006#32 ∧
  encode .release = .cmd 0x00000007#32 ∧
  decode (.cmd 0x00000001#32) = .ok .init ∧
  decode (.cmd 0x00000002#32) = .ok .acqAll ∧
  decode (.cmd 0x00000003#32) = .ok (.acqBit 0#7) ∧
  decode (.cmd 0x00000703#32) = .ok (.acqBit 7#7) ∧
  decode (.cmd 0x00003F03#32) = .ok (.acqBit 63#7) ∧
  decode (.cmd 0x00000004#32) = .ok .acqLoop ∧
  decode (.cmd 0x00000005#32) = .ok .cancel ∧
  decode (.cmd 0x00000006#32) = .ok .describe ∧
  decode (.cmd 0x00000007#32) = .ok .release ∧
  ∀ idx : BitVec 7, idx.toNat < 64 →
    encode (.acqBit idx) = .cmd (0x00000003#32 ||| BitVec.ofNat 32 (256 * idx.toNat))

/-- The code column of R100: the 18 phase codes. -/
def Obligations.PhaseCodesOfTheSpec : Prop :=
  decode (.uop 0x00#5) = .ok .idle ∧
  decode (.uop 0x01#5) = .ok .iCfgSdata ∧
  decode (.uop 0x02#5) = .ok .iCfgLoad ∧
  decode (.uop 0x03#5) = .ok .iCfgClk ∧
  decode (.uop 0x04#5) = .ok .iIdleLoad ∧
  decode (.uop 0x05#5) = .ok .iIdleClk ∧
  decode (.uop 0x08#5) = .ok .ldFall ∧
  decode (.uop 0x09#5) = .ok .ldLowWait ∧
  decode (.uop 0x0A#5) = .ok .ldRise ∧
  decode (.uop 0x0B#5) = .ok .ldHighWait ∧
  decode (.uop 0x0C#5) = .ok .smp ∧
  decode (.uop 0x0D#5) = .ok .ckRise ∧
  decode (.uop 0x0E#5) = .ok .ckHighWait ∧
  decode (.uop 0x0F#5) = .ok .ckFall ∧
  decode (.uop 0x10#5) = .ok .ckLowWait ∧
  decode (.uop 0x11#5) = .ok .capture ∧
  decode (.uop 0x12#5) = .ok .cadenceWait ∧
  decode (.uop 0x13#5) = .ok .rel

/-- R101: no reachable state holds one of the codes 0x06, 0x07 and 0x14 to 0x1F, and a tick that meets one, without
reset, is refused. The model's reading: a tick whose response answers no request is refused for that (R273; log 5, which
counts the abandoned requests in `stale`), and before anything else (log 23). -/
def Obligations.UnusedPhaseCodesRefused : Prop :=
  (∀ t : State, Reachable t → t.seq.toNat ≤ 0x13 ∧ t.seq ≠ 0x06#5 ∧ t.seq ≠ 0x07#5) ∧
  (∀ s : State, rstNow s = false → (s.seq = 0x06#5 ∨ s.seq = 0x07#5 ∨ 0x14 ≤ s.seq.toNat) →
    step s = .refused (if spurious s then .spuriousResponse else .unusedPhase s.seq))

/-! ### The tick and the host port (40_sequencer.md R120, 20_memory.md, 10_state.md) -/

/-- A tick without reset, whose response answers a request if it has one, runs the phase SEQ holds and then the host
access: without an access the inputs are consumed; a read answers with the register as the phase left it; a CMD write
runs its command in that state, or records why the word is none (R120, R122, R126, R81). The tick also counts the
requests a reset abandoned, the model's own field `stale` (log 5). -/
def Obligations.StepRunsPhaseThenHostAccess : Prop :=
  ∀ (s s1 : State) (i : Instr), spurious s = false → rstNow s = false → decode (.uop s.seq) = .ok i →
    exec i s = .next s1 →
    (accNow s = none → step s = .next { s1 with env := s.env.tail, rdata := none, stale := staleAfter s }) ∧
    (∀ off : Nat, off < 32 → off % 4 = 0 → accNow s = some (.read (s.build.sicBase + off) 4) →
      step s = .next { s1 with
        env := s.env.tail, rdata := some (BitVec.ofNat 32 (readTable off s1)), stale := staleAfter s }) ∧
    (∀ (v : Word) (j : Instr), accNow s = some (.write s.build.sicBase 4 v) → decode (.cmd v) = .ok j →
      (∀ s2, exec j s1 = .next s2 →
        step s = .next { s2 with env := s.env.tail, rdata := none, stale := staleAfter s }) ∧
      (∀ r, exec j s1 = .refused r → step s = .refused r)) ∧
    (∀ v : Word, accNow s = some (.write s.build.sicBase 4 v) → decode (.cmd v) = .error .illegalOp →
      step s = .next { s1 with rej := .illegalOp, env := s.env.tail, rdata := none, stale := staleAfter s }) ∧
    (∀ v : Word, accNow s = some (.write s.build.sicBase 4 v) → decode (.cmd v) = .error .badEncoding →
      step s = .next { s1 with rej := .badEncoding, env := s.env.tail, rdata := none, stale := staleAfter s })

/-- R64: a read has no side effect. The tick with it leaves all that the tick without it leaves, but for the answer;
and two reads of one register in consecutive ticks differ only if the register changed in between. -/
def Obligations.HostReadHasNoSideEffect : Prop :=
  ∀ (s t : State) (addr size : Nat), accNow s = some (.read addr size) → step s = .next t →
    step { s with env := { rst := rstNow s, rsp := rspNow s, acc := none } :: s.env.tail } =
      .next { t with rdata := none } ∧
    (∀ u : State, s.build.sicBase ≤ addr → addr < s.build.sicBase + 32 →
      accNow t = some (.read addr size) → step t = .next u →
      readTable (addr - s.build.sicBase) t = readTable (addr - s.build.sicBase) u → u.rdata = t.rdata)

/-- The fields of the STATUS word, with their codes (R23, R30, R31, R36 to R39, R106). -/
def Obligations.StatusWordLayout : Prop :=
  ∀ s : State,
    (statusWord s).getLsbD 0 = decide (s.seq ≠ 0x00#5) ∧
    (statusWord s).getLsbD 1 = s.done ∧
    (statusWord s).extractLsb' 2 2 = (match s.life with | .unconfigured => 0#2 | .active => 1#2 | .tornDown => 2#2) ∧
    (statusWord s).getLsbD 4 = s.loopMode ∧
    (statusWord s).getLsbD 5 = s.cancelPending ∧
    (statusWord s).getLsbD 6 = s.releasePending ∧
    (statusWord s).getLsbD 7 = s.relFault ∧
    (statusWord s).extractLsb' 8 3 =
      (match s.err with | .none => 0#3 | .configuration => 1#3 | .initialization => 2#3 | .hardwareFault => 3#3) ∧
    (statusWord s).getLsbD 11 = false ∧
    (statusWord s).extractLsb' 12 3 =
      (match s.rej with
        | .none => 0#3 | .illegalOp => 1#3 | .badEncoding => 2#3 | .busy => 3#3 | .badState => 4#3
        | .badOperand => 5#3) ∧
    (statusWord s).getLsbD 15 = false ∧
    (statusWord s).extractLsb' 16 2 =
      (match s.exit with | .none => 0#2 | .released => 1#2 | .cancelled => 2#2 | .fault => 3#2) ∧
    (statusWord s).extractLsb' 18 3 =
      (match s.faultOp with
        | none => 0#3 | some .cfgIn => 1#3 | some .cfgOut => 2#3 | some .write => 3#3 | some .read => 4#3
        | some .release => 5#3) ∧
    (statusWord s).extractLsb' 21 3 = 0#3 ∧
    (statusWord s).extractLsb' 24 8 = s.count

/-- R26: a write to CFG_WIDTH or CFG_PINS takes effect only when LIFE is not ACTIVE and BUSY is 0, and is otherwise
ignored, without a rejection code. A tick refused for its response is left out (R273, log 5). -/
def Obligations.ConfigWrites : Prop :=
  ∀ (s s1 : State) (i : Instr) (v : Word), spurious s = false → rstNow s = false → decode (.uop s.seq) = .ok i →
    exec i s = .next s1 →
    (accNow s = some (.write (s.build.sicBase + 0x08) 4 v) → s1.life ≠ .active → s1.seq = 0x00#5 →
      step s = .next { s1 with
        cfgWidth := v.extractLsb' 0 8, env := s.env.tail, rdata := none, stale := staleAfter s }) ∧
    (accNow s = some (.write (s.build.sicBase + 0x0C) 4 v) → s1.life ≠ .active → s1.seq = 0x00#5 →
      step s = .next { s1 with
        cfgSdata := v.extractLsb' 0 8, cfgLoad := v.extractLsb' 8 8, cfgClk := v.extractLsb' 16 8,
        env := s.env.tail, rdata := none, stale := staleAfter s }) ∧
    (accNow s = some (.write (s.build.sicBase + 0x08) 4 v) ∨ accNow s = some (.write (s.build.sicBase + 0x0C) 4 v) →
      s1.life = .active ∨ s1.seq ≠ 0x00#5 →
      step s = .next { s1 with env := s.env.tail, rdata := none, stale := staleAfter s })

/-- Writes to STATUS, RESULT_LO, RESULT_HI, PARAMS and offset 0x1C are ignored (R21, R29, R65). -/
def Obligations.OtherWritesIgnored : Prop :=
  ∀ (s s1 : State) (i : Instr) (v : Word) (off : Nat), spurious s = false → rstNow s = false →
    decode (.uop s.seq) = .ok i → exec i s = .next s1 → off ∈ [0x04, 0x10, 0x14, 0x18, 0x1C] →
    accNow s = some (.write (s.build.sicBase + off) 4 v) →
    step s = .next { s1 with env := s.env.tail, rdata := none, stale := staleAfter s }

/-- A narrower, wider or misaligned access to the window has no step. The model's reading of R63 is that the whole tick is
refused, the sequencer's half with it (log 6), and that a tick whose response answers no request is refused for that
(R273, log 5), before anything else (log 23). That an access of no bytes strictly inside the window is refused too is
the model's choice (log 24). -/
def Obligations.InadmissibleAccessRefused : Prop :=
  ∀ (s : State) (i : Instr) (addr size : Nat), rstNow s = false → decode (.uop s.seq) = .ok i →
    addr < s.build.sicBase + 32 → s.build.sicBase < addr + size →
    size ≠ 4 ∨ addr < s.build.sicBase ∨ addr % 4 ≠ s.build.sicBase % 4 →
    (accNow s = some (.read addr size) ∨ ∃ v, accNow s = some (.write addr size v)) →
    step s = .refused (if spurious s then .spuriousResponse else .badAccess)

/-- The model's choice (log 7): an access that touches no byte of the window has no effect on the block and no read
data. The spec says only that the platform's address space is not the block's (R67). An access of no bytes counts as
outside at or below the base and from the end on (log 24). -/
def Obligations.AccessOutsideWindowIgnored : Prop :=
  ∀ (s s1 : State) (i : Instr) (addr size : Nat), spurious s = false → rstNow s = false →
    decode (.uop s.seq) = .ok i → exec i s = .next s1 →
    s.build.sicBase + 32 ≤ addr ∨ addr + size ≤ s.build.sicBase →
    (accNow s = some (.read addr size) ∨ ∃ v, accNow s = some (.write addr size v)) →
    step s = .next { s1 with env := s.env.tail, rdata := none, stale := staleAfter s }

/-- R290: in a tick with `rst` 1 every register takes its reset value whatever it held, the sequencer does not step, a
write has no effect, a read returns the reset value and no request is presented. A request that waits for its response
is abandoned: the model's own field `stale` counts it (R291, log 5). A reset tick whose response answers no request is
refused like any other (log 23, the model's choice). -/
def Obligations.ResetTick : Prop :=
  ∀ s : State, rstNow s = true →
    pinPort s = { valid := false, op := 0#3, pin := 0#8, arg := 0#2 } ∧
    (spurious s = false →
      accNow s = none ∨
        (∃ off, off < 32 ∧ off % 4 = 0 ∧
          (accNow s = some (.read (s.build.sicBase + off) 4) ∨
            ∃ v, accNow s = some (.write (s.build.sicBase + off) 4 v))) →
      ∃ t, step s = .next t) ∧
    ∀ t, step s = .next t →
      t.build = s.build ∧ t.cfgWidth = 8#8 ∧ t.cfgSdata = 0#8 ∧ t.cfgLoad = 0#8 ∧ t.cfgClk = 0#8 ∧
      t.result = 0#64 ∧ t.done = false ∧ t.life = .unconfigured ∧ t.loopMode = false ∧ t.cancelPending = false ∧
      t.releasePending = false ∧ t.relFault = false ∧ t.err = .none ∧ t.rej = .none ∧ t.exit = .none ∧
      t.faultOp = none ∧ t.count = 0#8 ∧ t.seq = 0x00#5 ∧ t.callst = .issue ∧ t.curOp = none ∧ t.curIdx = 0#6 ∧
      t.tdr = .none ∧ t.acc = 0#64 ∧ t.bit = 0#7 ∧ t.tmr = 0#32 ∧ t.env = s.env.tail ∧
      t.stale = (if awaiting s ∧ rspNow s = none then s.stale + 1
        else if awaiting s = false ∧ (rspNow s).isSome then s.stale - 1 else s.stale) ∧
      (∀ off, off < 32 → off % 4 = 0 → accNow s = some (.read (s.build.sicBase + off) 4) →
        t.rdata = some (if off = 0x08 then 8#32 else if off = 0x18 then s.build.wmax.setWidth 32 else 0#32))

/-- R52: the reset state's values, for all build parameters. -/
def Obligations.ResetValues : Prop :=
  ∀ (build : Config) (env : List TickIn) (rdata : Option Word) (s : State), s = State.ofReset build env rdata →
    s.cfgWidth = 8#8 ∧ s.cfgSdata = 0#8 ∧ s.cfgLoad = 0#8 ∧ s.cfgClk = 0#8 ∧ s.result = 0#64 ∧
    s.done = false ∧ s.loopMode = false ∧ s.cancelPending = false ∧ s.releasePending = false ∧ s.relFault = false ∧
    s.life = .unconfigured ∧ s.err = .none ∧ s.rej = .none ∧ s.exit = .none ∧ s.faultOp = none ∧ s.count = 0#8 ∧
    (statusWord s).getLsbD 0 = false ∧ readReg .params s = build.wmax.setWidth 32 ∧ s.seq = 0x00#5 ∧
    s.callst = .issue ∧ s.curOp = none ∧ s.curIdx = 0#6 ∧ s.tdr = .none ∧ s.bit = 0#7 ∧ s.tmr = 0#32 ∧
    s.acc = 0#64 ∧ (pinPort s).valid = false

/-- R133: the request outputs of a tick. `requestTable` writes out the request column of R100. -/
def Obligations.RequestOutputs : Prop :=
  ∀ s : State, rstNow s = false →
    (∀ op pin arg, s.callst = .issue → requestTable s.seq.toNat s = some (op, pin, arg) →
      pinPort s = { valid := true, op := op, pin := pin, arg := arg }) ∧
    (s.callst = .wait ∨ requestTable s.seq.toNat s = none →
      pinPort s = { valid := false, op := 0#3, pin := 0#8, arg := 0#2 })

/-! ### The commands (41_init.md to 44_teardown.md) -/

/-- INIT with a valid configuration clears the records of the last lifetime and starts at I_CFG_SDATA (R150, R151); its
pins are no other agent's (log 9). -/
def Obligations.InitStarts : Prop :=
  ∀ s : State, s.seq = 0x00#5 → s.life ≠ .active → ConfigOk s → PinsFree s →
    exec .init s = .next { s with
      rej := .none, done := false, err := .none, exit := .none, faultOp := none, relFault := false,
      result := 0#64, tdr := .none, curOp := some .init, seq := 0x01#5, callst := .issue }

/-- INIT with an invalid configuration: ConfigurationError, no phase change, LIFE unchanged (R150, R151, R254). -/
def Obligations.InitConfigurationError : Prop :=
  ∀ s : State, s.seq = 0x00#5 → s.life ≠ .active → ¬ ConfigOk s →
    exec .init s = .next { s with
      rej := .none, done := true, err := .configuration, exit := .none, faultOp := none, relFault := false,
      result := 0#64, tdr := .none }

/-- A valid configuration that names a pin another agent uses is refused (R270). That the refusal is INIT's, at its
acceptance, is the model's choice (log 9). -/
def Obligations.InitSharedPinRefused : Prop :=
  ∀ s : State, s.seq = 0x00#5 → s.life ≠ .active → ConfigOk s → ¬ PinsFree s → exec .init s = .refused .sharedPin

/-- ACQ_ALL, ACQ_BIT and ACQ_LOOP, accepted, start an acquisition at LD_FALL with ACC and BIT cleared (R190, R191,
R196, R198). -/
def Obligations.AcquisitionStarts : Prop :=
  ∀ s : State, s.seq = 0x00#5 → s.life = .active →
    exec .acqAll s = .next { s with
      rej := .none, done := false, curOp := some .acqAll, acc := 0#64, bit := 0#7, seq := 0x08#5, callst := .issue } ∧
    (∀ idx : BitVec 7, idx.toNat < 64 → idx.toNat < s.cfgWidth.toNat →
      exec (.acqBit idx) s = .next { s with
        rej := .none, done := false, curOp := some .acqBit, curIdx := idx.setWidth 6, acc := 0#64, bit := 0#7,
        seq := 0x08#5, callst := .issue }) ∧
    exec .acqLoop s = .next { s with
      rej := .none, done := false, curOp := some .acqLoop, loopMode := true, acc := 0#64, bit := 0#7,
      seq := 0x08#5, callst := .issue }

/-- R201 and R231: an immediate CANCEL and an immediate RELEASE. -/
def Obligations.ImmediateTeardown : Prop :=
  ∀ s : State, s.seq = 0x00#5 → s.life = .active →
    exec .cancel s = .next { s with
      rej := .none, done := false, curOp := some .cancel, tdr := .cancelled, seq := 0x13#5, callst := .issue } ∧
    exec .release s = .next { s with
      rej := .none, done := false, curOp := some .release, tdr := .released, seq := 0x13#5, callst := .issue }

/-- While an acquisition command runs and SEQ is neither IDLE nor REL, CANCEL and RELEASE only set their pending flag,
and REJ to NONE (R124, R125, R202, R232). -/
def Obligations.DeferredTeardown : Prop :=
  ∀ s : State, s.seq ≠ 0x00#5 → s.seq ≠ 0x13#5 → acqOp s →
    exec .cancel s = .next { s with rej := .none, cancelPending := true } ∧
    exec .release s = .next { s with rej := .none, releasePending := true }

/-- DESCRIBE in any LIFE, idle: RESULT is the configuration, packed as R237 says, and DONE is 1 (R236, R237). -/
def Obligations.DescribeReportsConfiguration : Prop :=
  ∀ s : State, s.seq = 0x00#5 →
    exec .describe s = .next { s with
      rej := .none, done := true,
      result := BitVec.ofNat 64 (s.cfgWidth.toNat + 2 ^ 8 * s.cfgSdata.toNat + 2 ^ 16 * s.cfgLoad.toNat +
        2 ^ 24 * s.cfgClk.toNat) }

/-- R124 and R125: a command is rejected exactly as the table says, changing only REJ; every command the table accepts
sets REJ to NONE. `rejectionOf` writes the table out. The one accepted command without a next state is an INIT whose
pins are shared (log 9). -/
def Obligations.CommandTable : Prop :=
  ∀ (s : State) (i : Instr),
    (∀ c, rejectionOf i s = some c → exec i s = .next { s with rej := c }) ∧
    ((i = .init ∨ i = .acqAll ∨ (∃ idx, i = .acqBit idx) ∨ i = .acqLoop ∨ i = .cancel ∨ i = .describe ∨ i = .release) →
      rejectionOf i s = none → i ≠ .init ∨ ¬ ConfigOk s ∨ PinsFree s → ∃ t, exec i s = .next t ∧ t.rej = .none)

/-! ### The phases (40_sequencer.md to 44_teardown.md) -/

/-- R127: IDLE changes nothing, whatever response comes, and neither does its tick without a host access, the model's own
fields apart; a tick whose response answers no request is no such tick (R273, log 5). -/
def Obligations.IdleChangesNothing : Prop :=
  ∀ s : State, exec .idle s = .next s ∧
    (s.seq = 0x00#5 → spurious s = false → rstNow s = false → accNow s = none →
      step s = .next { s with env := s.env.tail, rdata := none, stale := staleAfter s })

/-- Every call phase presents its request and goes to WAIT, whatever response comes in that tick, and then holds until
a response comes (R128). -/
def Obligations.CallPhasesIssueThenHold : Prop :=
  ∀ (s : State) (i : Instr), i ∈ callInstrs →
    (s.callst = .issue → exec i s = .next { s with callst := .wait }) ∧
    (s.callst = .wait → rspNow s = none → exec i s = .next s)

/-- A successful response in a phase of INIT: the call joins TRACE and the next phase follows; I_IDLE_CLK makes the
driver ACTIVE and ends the sequence (R152 to R156, R135). -/
def Obligations.InitPhasesAdvance : Prop :=
  ∀ (s : State) (l : Level), s.callst = .wait → rspNow s = some { fault := false, level := l } →
    exec .iCfgSdata s = .next { s with
      seq := 0x02#5, callst := .issue,
      trace := s.trace ++ [{ req := { op := .cfgIn, pin := s.cfgSdata, arg := 1#2 }, fault := false, level := l }] } ∧
    exec .iCfgLoad s = .next { s with
      seq := 0x03#5, callst := .issue,
      trace := s.trace ++ [{ req := { op := .cfgOut, pin := s.cfgLoad, arg := 0#2 }, fault := false, level := l }] } ∧
    exec .iCfgClk s = .next { s with
      seq := 0x04#5, callst := .issue,
      trace := s.trace ++ [{ req := { op := .cfgOut, pin := s.cfgClk, arg := 0#2 }, fault := false, level := l }] } ∧
    exec .iIdleLoad s = .next { s with
      seq := 0x05#5, callst := .issue,
      trace := s.trace ++ [{ req := { op := .write, pin := s.cfgLoad, arg := 1#2 }, fault := false, level := l }] } ∧
    exec .iIdleClk s = .next { s with
      life := .active, seq := 0x00#5, callst := .issue, curOp := none, loopMode := false, done := true,
      trace := s.trace ++ [{ req := { op := .write, pin := s.cfgClk, arg := 0#2 }, fault := false, level := l }] }

/-- A fault response in a phase of INIT: `fatal(INITIALIZATION, op)` records the class, the failed operation and the
reason, and goes to REL; nothing else changes but TRACE (R157, R255, R256). -/
def Obligations.InitPhaseFault : Prop :=
  ∀ (s : State) (l : Level), s.callst = .wait → rspNow s = some { fault := true, level := l } →
    ∀ (i : Instr) (q : PinReq),
      (i, q) ∈ [(.iCfgSdata, { op := .cfgIn, pin := s.cfgSdata, arg := 1#2 }),
                (.iCfgLoad, { op := .cfgOut, pin := s.cfgLoad, arg := 0#2 }),
                (.iCfgClk, { op := .cfgOut, pin := s.cfgClk, arg := 0#2 }),
                (.iIdleLoad, { op := .write, pin := s.cfgLoad, arg := 1#2 }),
                (.iIdleClk, { op := .write, pin := s.cfgClk, arg := 0#2 })] →
      exec i s = .next { s with
        err := .initialization, faultOp := some q.op, tdr := .initFail, seq := 0x13#5, callst := .issue,
        trace := s.trace ++ [{ req := q, fault := true, level := l }] }

/-- A successful response in the four edges of the pulses: the call joins TRACE and the settle wait begins with TMR
at N_SETTLE (R171, R173, R176, R178, R132). -/
def Obligations.PulseEdgesAdvance : Prop :=
  ∀ (s : State) (l : Level), s.callst = .wait → rspNow s = some { fault := false, level := l } →
    exec .ldFall s = .next { s with
      seq := 0x09#5, callst := .issue, tmr := s.build.nSettle,
      trace := s.trace ++ [{ req := { op := .write, pin := s.cfgLoad, arg := 0#2 }, fault := false, level := l }] } ∧
    exec .ldRise s = .next { s with
      seq := 0x0B#5, callst := .issue, tmr := s.build.nSettle,
      trace := s.trace ++ [{ req := { op := .write, pin := s.cfgLoad, arg := 1#2 }, fault := false, level := l }] } ∧
    exec .ckRise s = .next { s with
      seq := 0x0E#5, callst := .issue, tmr := s.build.nSettle,
      trace := s.trace ++ [{ req := { op := .write, pin := s.cfgClk, arg := 1#2 }, fault := false, level := l }] } ∧
    exec .ckFall s = .next { s with
      seq := 0x10#5, callst := .issue, tmr := s.build.nSettle,
      trace := s.trace ++ [{ req := { op := .write, pin := s.cfgClk, arg := 0#2 }, fault := false, level := l }] }

/-- A successful READ writes bit BIT of ACC with the level and goes to CK_RISE; no other bit of ACC changes, and nothing
else but TRACE (R192). BIT lies below WMAX, as R192 says it does. -/
def Obligations.SampleWritesBit : Prop :=
  ∀ (s : State) (l : Level), s.callst = .wait → rspNow s = some { fault := false, level := l } →
    s.bit.toNat < s.build.wmax.toNat → s.build.wmax.toNat ≤ 64 →
    ∃ acc : BitVec 64,
      (∀ j, acc.getLsbD j = if j = s.bit.toNat then l else s.acc.getLsbD j) ∧
      (s.acc.toNat < 2 ^ s.bit.toNat → acc.toNat = s.acc.toNat + (if l then 2 ^ s.bit.toNat else 0)) ∧
      exec .smp s = .next { s with
        acc := acc, seq := 0x0D#5, callst := .issue,
        trace := s.trace ++ [{ req := { op := .read, pin := s.cfgSdata, arg := 0#2 }, fault := false, level := l }] }

/-- A fault response in an acquisition call: `fatal(HARDWARE_FAULT, op)`; RESULT, COUNT, the pending flags, LOOP, ACC
and BIT keep their values (R130, R256, R257). -/
def Obligations.AcquisitionFault : Prop :=
  ∀ (s : State) (l : Level), s.callst = .wait → rspNow s = some { fault := true, level := l } →
    ∀ (i : Instr) (q : PinReq),
      (i, q) ∈ [(.ldFall, { op := .write, pin := s.cfgLoad, arg := 0#2 }),
                (.ldRise, { op := .write, pin := s.cfgLoad, arg := 1#2 }),
                (.smp, { op := .read, pin := s.cfgSdata, arg := 0#2 }),
                (.ckRise, { op := .write, pin := s.cfgClk, arg := 1#2 }),
                (.ckFall, { op := .write, pin := s.cfgClk, arg := 0#2 })] →
      exec i s = .next { s with
        err := .hardwareFault, faultOp := some q.op, tdr := .fault, seq := 0x13#5, callst := .issue,
        trace := s.trace ++ [{ req := q, fault := true, level := l }] }

/-- A settle wait counts TMR down; in the tick TMR reaches 0 the next phase begins (R131, R172, R174, R177). -/
def Obligations.SettleWaits : Prop :=
  ∀ s : State,
    (2 ≤ s.tmr.toNat → ∀ i ∈ [Instr.ldLowWait, .ldHighWait, .ckHighWait, .ckLowWait],
      exec i s = .next { s with tmr := s.tmr - 1#32 }) ∧
    (s.tmr = 1#32 →
      exec .ldLowWait s = .next { s with tmr := 0#32, seq := 0x0A#5, callst := .issue } ∧
      exec .ldHighWait s = .next { s with tmr := 0#32, seq := 0x0C#5, callst := .issue } ∧
      exec .ckHighWait s = .next { s with tmr := 0#32, seq := 0x0F#5, callst := .issue })

/-- The expiry of CK_LOW_WAIT: BIT counts up, and SMP follows while positions remain, CAPTURE after the last (R179).
BIT is below 64, as in every reachable state (R140 a). -/
def Obligations.ClockPulseEnds : Prop :=
  ∀ s : State, s.tmr = 1#32 → s.bit.toNat < 64 →
    (s.bit.toNat + 1 < s.cfgWidth.toNat →
      exec .ckLowWait s = .next { s with tmr := 0#32, bit := s.bit + 1#7, seq := 0x0C#5, callst := .issue }) ∧
    (s.cfgWidth.toNat ≤ s.bit.toNat + 1 →
      exec .ckLowWait s = .next { s with tmr := 0#32, bit := s.bit + 1#7, seq := 0x11#5, callst := .issue })

/-- CAPTURE: RESULT takes ACC, or for ACQ_BIT its bit CUR_IDX, and COUNT counts up modulo 256; then a pending CANCEL,
else a pending RELEASE, begins the teardown, else a loop waits for its cadence, else the sequence ends (R194, R195). -/
def Obligations.CaptureLatches : Prop :=
  ∀ (s : State) (v : BitVec 64),
    v = (if s.curOp = some .acqBit then (if s.acc.getLsbD s.curIdx.toNat then 1#64 else 0#64) else s.acc) →
    (s.cancelPending = true →
      exec .capture s = .next { s with
        result := v, count := s.count + 1#8, tdr := .cancelled, seq := 0x13#5, callst := .issue }) ∧
    (s.cancelPending = false → s.releasePending = true →
      exec .capture s = .next { s with
        result := v, count := s.count + 1#8, tdr := .released, seq := 0x13#5, callst := .issue }) ∧
    (s.cancelPending = false → s.releasePending = false → s.loopMode = true →
      exec .capture s = .next { s with
        result := v, count := s.count + 1#8, seq := 0x12#5, callst := .issue, tmr := s.build.nCadence }) ∧
    (s.cancelPending = false → s.releasePending = false → s.loopMode = false →
      exec .capture s = .next { s with
        result := v, count := s.count + 1#8, seq := 0x00#5, callst := .issue, curOp := none, loopMode := false,
        done := true })

/-- CADENCE_WAIT takes a pending teardown in any of its ticks, and otherwise counts TMR down to the start of the next
acquisition (R199, R191). -/
def Obligations.CadenceWaits : Prop :=
  ∀ s : State,
    (s.cancelPending = true →
      exec .cadenceWait s = .next { s with tdr := .cancelled, seq := 0x13#5, callst := .issue }) ∧
    (s.cancelPending = false → s.releasePending = true →
      exec .cadenceWait s = .next { s with tdr := .released, seq := 0x13#5, callst := .issue }) ∧
    (s.cancelPending = false → s.releasePending = false → 2 ≤ s.tmr.toNat →
      exec .cadenceWait s = .next { s with tmr := s.tmr - 1#32 }) ∧
    (s.cancelPending = false → s.releasePending = false → s.tmr = 1#32 →
      exec .cadenceWait s = .next { s with
        tmr := 0#32, acc := 0#64, bit := 0#7, seq := 0x08#5, callst := .issue })

/-- The response to REL's request, faulty or not, completes the teardown: a lifetime ends with the EXIT its reason
gives, a failed INIT leaves LIFE and EXIT; a fault sets RELFAULT and changes nothing else (R233, R234, R258). -/
def Obligations.TeardownCompletes : Prop :=
  ∀ (s : State) (f : Bool) (l : Level), s.callst = .wait → rspNow s = some { fault := f, level := l } →
    (∀ (r : Tdr) (e : ExitCode), (r, e) ∈ [(.released, .released), (.cancelled, .cancelled), (.fault, .fault)] →
      s.tdr = r →
      exec .rel s = .next { s with
        relFault := s.relFault || f, life := .tornDown, exit := e, cancelPending := false, releasePending := false,
        seq := 0x00#5, callst := .issue, curOp := none, loopMode := false, done := true,
        trace := s.trace ++ [{ req := { op := .release, pin := 0#8, arg := 0#2 }, fault := f, level := l }] }) ∧
    (s.tdr = .initFail →
      exec .rel s = .next { s with
        relFault := s.relFault || f, cancelPending := false, releasePending := false,
        seq := 0x00#5, callst := .issue, curOp := none, loopMode := false, done := true,
        trace := s.trace ++ [{ req := { op := .release, pin := 0#8, arg := 0#2 }, fault := f, level := l }] })

/-! ### Invariants -/

/-- The invariant holds after reset, for all legal build parameters and all inputs to come. -/
def Obligations.MachineInvAtReset : Prop :=
  MachineInv State.reset ∧
  ∀ (build : Config) (env : List TickIn) (rdata : Option Word), build.wf = true → MachineInv (State.ofReset build env rdata)

/-- Every step keeps the invariant, from every state that has it (R53; the ranges of BIT, ACC and TMR: R44, R45,
R131). -/
def Obligations.MachineInvKept : Prop :=
  ∀ s t : State, MachineInv s → step s = .next t → MachineInv t

/-- R53 in every reachable state. -/
def Obligations.ReachableStatus : Prop :=
  ∀ t : State, Reachable t →
    ((statusWord t).getLsbD 0 = true ↔ t.seq ≠ 0x00#5) ∧
    (t.seq = 0x00#5 →
      t.curOp = none ∧ t.loopMode = false ∧ t.cancelPending = false ∧ t.releasePending = false) ∧
    (0x08 ≤ t.seq.toNat ∧ t.seq.toNat ≤ 0x12 →
      t.life = .active ∧ (t.curOp = some .acqAll ∨ t.curOp = some .acqBit ∨ t.curOp = some .acqLoop) ∧
      t.bit.toNat ≤ t.cfgWidth.toNat) ∧
    (0x01 ≤ t.seq.toNat ∧ t.seq.toNat ≤ 0x05 → t.curOp = some .init ∧ t.life ≠ .active)

/-- Every step keeps the levels of the control lines that `LineInv` gives each phase (R54, R180). -/
def Obligations.LineInvKept : Prop :=
  ∀ s t : State, MachineInv s → LineInv s → step s = .next t → LineInv t

/-- R54 in every reachable state: between acquisitions of an ACTIVE lifetime LOAD was last written high and CLK low. -/
def Obligations.IdleLevels : Prop :=
  ∀ t : State, Reachable t → t.life = .active → (t.seq = 0x00#5 ∨ t.seq = 0x12#5) →
    lastLevel t.cfgLoad t.trace = some true ∧ lastLevel t.cfgClk t.trace = some false

/-- A teardown that CANCEL or RELEASE began issues its RELEASE with both control lines at their idle levels: no pulse is
in progress (R210). -/
def Obligations.ReleaseAtIdleLevels : Prop :=
  ∀ t : State, Reachable t → t.seq = 0x13#5 → t.callst = .issue → (t.tdr = .cancelled ∨ t.tdr = .released) →
    lastLevel t.cfgLoad t.trace = some true ∧ lastLevel t.cfgClk t.trace = some false

/-- Every step keeps: in an acquisition phase TRACE ends with exactly the calls that this phase and BIT say, and bit
`i` of ACC is what the `i`-th READ of them returned (R206, R193). -/
def Obligations.TraceInvKept : Prop :=
  ∀ s t : State, MachineInv s → TraceInv s → step s = .next t → TraceInv t

/-- R203, with the call sequence of R206: at CAPTURE, TRACE ends with the load pulse's two WRITEs and W times a READ and
a clock pulse, and RESULT is the sum of the levels those READs returned, or for ACQ_BIT the level of its position. -/
def Obligations.CaptureResult : Prop :=
  ∀ s t : State, MachineInv s → TraceInv s → s.seq = 0x11#5 → exec .capture s = .next t →
    ∃ (before calls : List PinCall) (lv : Nat → Level),
      s.trace = before ++ calls ∧
      calls.map shape = acqShapes s lv s.cfgWidth.toNat ∧
      calls.length = 2 + 3 * s.cfgWidth.toNat ∧
      (s.curOp ≠ some .acqBit →
        t.result.toNat = ∑ i ∈ Finset.range s.cfgWidth.toNat, (if lv i then 2 ^ i else 0)) ∧
      (s.curOp ≠ some .acqBit → t.result.toNat < 2 ^ s.cfgWidth.toNat) ∧
      (s.curOp = some .acqBit → t.result = if lv s.curIdx.toNat then 1#64 else 0#64)

/-- Every step keeps: in the calls since the last reset, CFG_IN and RELEASE alternate, and the last of them is an
unmatched CFG_IN exactly in the states that `configured` names (R235). A reset empties TRACE (R49; log 8, the model's
inference) and makes no call, so the pins may still be configured after it (R291), and the invariant says nothing of
the calls before it. -/
def Obligations.MarkInvKept : Prop :=
  ∀ s t : State, MachineInv s → MarkInv s → step s = .next t → MarkInv t

/-- In the calls since the last reset: no RELEASE without an INIT's CFG_IN before it, at most one for each, and exactly
one for each in every idle state whose driver is not ACTIVE (R235, R230). A reset empties TRACE (R49; log 8, the
model's inference) and issues no RELEASE for a driver it finds configured (R291), so nothing is said across it. -/
def Obligations.ReleaseExactlyOnce : Prop :=
  ∀ t : State, Reachable t →
    let configurations := (t.trace.filter fun c => decide (c.req.op = .cfgIn)).length
    let releases := (t.trace.filter fun c => decide (c.req.op = .release)).length
    releases ≤ configurations ∧ configurations ≤ releases + 1 ∧
    (t.seq = 0x00#5 → t.life ≠ .active → releases = configurations) ∧
    (t.life = .active → configurations = releases + 1)

/-! ### What only certain events change -/

/-- The events that change LIFE (R31). -/
def Obligations.LifeChangesOnly : Prop :=
  ∀ s t : State, MachineInv s → step s = .next t → t.life ≠ s.life →
    (rstNow s = true ∧ t.life = .unconfigured) ∨
    (rstNow s = false ∧ s.seq = 0x05#5 ∧ s.callst = .wait ∧ (∃ l, rspNow s = some { fault := false, level := l }) ∧
      s.life ≠ .active ∧ t.life = .active) ∨
    (rstNow s = false ∧ s.seq = 0x13#5 ∧ s.callst = .wait ∧ (∃ r, rspNow s = some r) ∧
      (s.tdr = .released ∨ s.tdr = .cancelled ∨ s.tdr = .fault) ∧ s.life = .active ∧ t.life = .tornDown)

/-- The configuration does not change in a tick that ends with the driver ACTIVE or a sequence running, and the build
parameters, WMAX in PARAMS among them, never change (R20, R26, R28, R132). -/
def Obligations.ConfigurationImmutable : Prop :=
  ∀ s t : State, step s = .next t →
    t.build = s.build ∧
    (t.life = .active ∨ t.seq ≠ 0x00#5 →
      t.cfgWidth = s.cfgWidth ∧ t.cfgSdata = s.cfgSdata ∧ t.cfgLoad = s.cfgLoad ∧ t.cfgClk = s.cfgClk)

/-- RESULT is written only by CAPTURE, DESCRIBE, INIT acceptance and reset (R27). -/
def Obligations.ResultChangesOnly : Prop :=
  ∀ s t : State, step s = .next t → t.result ≠ s.result →
    rstNow s = true ∨ s.seq = 0x11#5 ∨ writesCommand .describe s ∨ writesCommand .init s

/-- R47: COUNT counts the CAPTURE ticks modulo 256, and only reset clears it. -/
def Obligations.CountCountsCaptures : Prop :=
  ∀ s t : State, step s = .next t →
    t.count = if rstNow s then 0#8 else if s.seq = 0x11#5 then s.count + 1#8 else s.count

/-- ERR and FAULT_OP change only by a fault response to a call of INIT or of an acquisition, by a CMD write of INIT and
by reset: a fatal fault stays recorded until then (R36, R39, R261). -/
def Obligations.ErrorRecordsKept : Prop :=
  ∀ s t : State, step s = .next t → t.err ≠ s.err ∨ t.faultOp ≠ s.faultOp →
    rstNow s = true ∨ writesCommand .init s ∨
    (s.seq ≠ 0x13#5 ∧ awaiting s = true ∧ ∃ l, rspNow s = some { fault := true, level := l })

/-- SEQ moves only along the phase graph of R136; a command moves it only from IDLE, to the first phase of INIT, of an
acquisition or of a teardown (R40, R136). -/
def Obligations.PhaseGraph : Prop :=
  ∀ s t : State, rstNow s = false → step s = .next t →
    t.seq.toNat ∈ successors s.seq.toNat ∨
    (0x00 ∈ successors s.seq.toNat ∧
      ((t.seq = 0x01#5 ∧ writesCommand .init s) ∨
       (t.seq = 0x08#5 ∧ (writesCommand .acqAll s ∨ writesCommand .acqLoop s ∨ ∃ idx, writesCommand (.acqBit idx) s)) ∨
       (t.seq = 0x13#5 ∧ (writesCommand .cancel s ∨ writesCommand .release s))))

/-- In a pulse phase no host access changes anything but REJ, the pending flags and the read data: the pulse goes on
as it would without the access (R181). -/
def Obligations.PulseNotCutByHost : Prop :=
  ∀ s t t' : State, rstNow s = false →
    (0x08 ≤ s.seq.toNat ∧ s.seq.toNat ≤ 0x0B) ∨ (0x0D ≤ s.seq.toNat ∧ s.seq.toNat ≤ 0x10) →
    step s = .next t →
    step { s with env := { rst := false, rsp := rspNow s, acc := none } :: s.env.tail } = .next t' →
    t = { t' with
      rej := t.rej, cancelPending := t.cancelPending, releasePending := t.releasePending, rdata := t.rdata }

/-- A request is presented in one tick, and from then on nothing but its response (or reset) moves the sequencer; the
response completes it, as the next entry of TRACE; no other tick adds to TRACE (R134, R128, R77, R80). -/
def Obligations.OneOutstandingRequest : Prop :=
  ∀ s t : State, rstNow s = false → step s = .next t →
    ((pinPort s).valid = true → t.seq = s.seq ∧ t.callst = .wait ∧ t.trace = s.trace) ∧
    (awaiting s = true →
      (pinPort s).valid = false ∧
      (rspNow s = none → t.seq = s.seq ∧ t.callst = .wait ∧ t.trace = s.trace) ∧
      (∀ r, rspNow s = some r →
        t.callst = .issue ∧
        ∃ q : PinReq, requestTable s.seq.toNat s = some (pinOpCode q.op, q.pin, q.arg) ∧
          t.trace = s.trace ++ [{ req := q, fault := r.fault, level := r.level }])) ∧
    (requestTable s.seq.toNat s = none → (pinPort s).valid = false ∧ t.trace = s.trace)

/-- A late response to a request that a reset abandoned changes nothing but the count of such requests, in any tick in
which no call waits (R78, R291). The count `stale`, and that R291's late response is the one case of R78 that has a
step, are the model's reading of R78 and R291 against R273 (log 5). -/
def Obligations.ResponseOutsideWaitIgnored : Prop :=
  ∀ s : State, awaiting s = false → (rspNow s).isSome → 0 < s.stale →
    step s =
      step { s with
        stale := s.stale - 1, env := { rst := rstNow s, rsp := none, acc := accNow s } :: s.env.tail }

/-! ### ACQ_BIT beside ACQ_ALL -/

/-- An ACQ_BIT in the place of an ACQ_ALL steps as it does, in every acquisition phase before CAPTURE: the same calls,
responses, pins and host answers (R197); and at CAPTURE its RESULT is the bit of the ACQ_ALL's at its position (R205). -/
def Obligations.AcqBitFollowsAcqAll : Prop :=
  ∀ (s t : State) (idx : BitVec 6), s.curOp = some .acqAll →
    (∀ p, phaseOfCode s.seq = some p → acqPhase p = true → p ≠ .capture → rstNow s = false → step s = .next t →
      t.curOp = some .acqAll ∧
      step { s with curOp := some .acqBit, curIdx := idx } =
        .next { t with curOp := some .acqBit, curIdx := idx } ∧
      pinPort { s with curOp := some .acqBit, curIdx := idx } = pinPort s) ∧
    (∀ t', exec .capture s = .next t → exec .capture { s with curOp := some .acqBit, curIdx := idx } = .next t' →
      t'.result = (if t.result.getLsbD idx.toNat then 1#64 else 0#64) ∧ t'.trace = t.trace ∧ t'.count = t.count)

/-! ### Runs of many ticks -/

/-- A settle wait entered with TMR = n lasts n ticks, the last of which begins the next phase (R131, R132). The inputs
hold no reset, no host access and no more responses than requests that a reset abandoned (R273). -/
def Obligations.SettleWaitLasts : Prop :=
  ∀ (s : State) (n next : Nat), 1 ≤ n → s.tmr.toNat = n → s.bit.toNat < 64 →
    (s.seq.toNat, next) ∈ [(0x09, 0x0A), (0x0B, 0x0C), (0x0E, 0x0F),
      (0x10, if s.bit.toNat + 1 < s.cfgWidth.toNat then 0x0C else 0x11)] →
    (∀ x ∈ s.env.take n, x.rst = false ∧ x.acc = none) →
    (s.env.take n).countP (fun x => x.rsp.isSome) ≤ s.stale →
    (∀ k, k < n → ∃ t, Sys2Proof.core.run k s = .next t ∧
      t.seq = s.seq ∧ t.tmr.toNat = n - k ∧ t.trace = s.trace) ∧
    ∃ t, Sys2Proof.core.run n s = .next t ∧ t.seq.toNat = next ∧ t.trace = s.trace

/-- A quiescent state, with no reset to come either (the model's choice, log 22; R139 asks only for IDLE and no further
host access), stays as it is for ever, the model's own fields apart (R139, R127): its inputs are consumed, its
read data is dropped, and each response answers a request that a reset abandoned (R273, log 5). -/
def Obligations.QuiescentStays : Prop :=
  ∀ (s : State) (n : Nat), quiescent s = true → (s.env.take n).countP (fun x => x.rsp.isSome) ≤ s.stale →
    ∃ rd, Sys2Proof.core.run n s = .next { s with
      env := s.env.drop n, rdata := rd, stale := s.stale - (s.env.take n).countP (fun x => x.rsp.isSome) }

/-- An INIT with a valid configuration whose five calls are each answered L ticks after their request, without a fault,
is complete 5(L + 1) ticks after its acceptance, with the driver ACTIVE and the five calls of R158 added to TRACE
(R158, R159, R303). -/
def Obligations.InitCompletes : Prop :=
  ∀ (s : State) (latency : Nat) (rest : List TickIn), 1 ≤ latency → s.seq = 0x00#5 → s.life ≠ .active →
    ConfigOk s → PinsFree s →
    s.env = { rst := false, rsp := none, acc := some (.write s.build.sicBase 4 0x00000001#32) } ::
      ((List.replicate 5 (callTicks latency false)).flatten ++ rest) →
    ∃ t calls, Sys2Proof.core.run (1 + 5 * (latency + 1)) s = .next t ∧
      t.trace = s.trace ++ calls ∧ calls.map shape = initShapes s ∧
      t.life = .active ∧ t.seq = 0x00#5 ∧ t.done = true ∧ t.err = .none ∧ t.exit = .none ∧ t.faultOp = none ∧
      t.relFault = false ∧ t.rej = .none ∧ t.result = 0#64 ∧ t.count = s.count ∧ t.curOp = none ∧ t.env = rest

/-- An ACQ_ALL of width W whose calls are each answered, without a fault, L ticks after their request has its CAPTURE in
the tick R207 gives: that tick starts with SEQ at CAPTURE and nothing captured yet, and ends idle, with RESULT the sum of the sampled levels, COUNT one more and the calls of
R206 added to TRACE (R203, R206, R207). -/
def Obligations.AcquisitionCompletes : Prop :=
  ∀ (s : State) (latency : Nat) (lv : Nat → Level) (rest : List TickIn),
    s.build.wf = true → 1 ≤ latency → 1 ≤ s.cfgWidth.toNat → s.cfgWidth.toNat ≤ s.build.wmax.toNat →
    s.seq = 0x08#5 → s.callst = .issue → s.curOp = some .acqAll → s.acc = 0#64 → s.bit = 0#7 →
    s.loopMode = false → s.cancelPending = false → s.releasePending = false →
    s.env = acqTicks s.cfgWidth.toNat s.build.nSettle.toNat latency lv ++ rest →
    (∃ u,
      Sys2Proof.core.run
        (2 * (latency + 1) + 2 * s.build.nSettle.toNat +
          s.cfgWidth.toNat * (3 * (latency + 1) + 2 * s.build.nSettle.toNat)) s = .next u ∧
      u.seq = 0x11#5 ∧ u.result = s.result ∧ u.count = s.count) ∧
    ∃ t calls,
      Sys2Proof.core.run
        (2 * (latency + 1) + 2 * s.build.nSettle.toNat +
          s.cfgWidth.toNat * (3 * (latency + 1) + 2 * s.build.nSettle.toNat) + 1) s = .next t ∧
      t.trace = s.trace ++ calls ∧ calls.map shape = acqShapes s lv s.cfgWidth.toNat ∧
      t.result.toNat = (∑ i ∈ Finset.range s.cfgWidth.toNat, (if lv i then 2 ^ i else 0)) ∧
      t.count = s.count + 1#8 ∧ t.seq = 0x00#5 ∧ t.done = true ∧ t.curOp = none ∧ t.life = s.life ∧ t.env = rest

/-! ### Responses and requests -/

/-- A tick whose response answers no request is refused: the environment has no such move (R273, R78). That it is
refused before anything else of the tick, with `rst` 1 too (R260), is the model's choice (log 23). In every other
tick the requests presented and not yet answered, the one that waits and those that a reset abandoned, grow by the
request of the tick and shrink by its response (R77, R134, R291). The count of abandoned requests is the model's own
field `stale` (log 5). -/
def Obligations.ResponsesAnswerRequests : Prop :=
  ∀ s : State,
    ((rspNow s).isSome → awaiting s = false → s.stale = 0 → step s = .refused .spuriousResponse) ∧
    ∀ t : State, step s = .next t →
      t.stale + (if awaiting t then 1 else 0) + (if (rspNow s).isSome then 1 else 0) =
        s.stale + (if awaiting s then 1 else 0) + (if (pinPort s).valid then 1 else 0)
end

