-- ==== Sys2Proof/Laws/State.lean ====
section
/-! SUPPORT. One lemma per field of State and per named update of it, true by rfl: after them no proof unfolds an
update. -/

namespace Sys2Proof.Machine

/-! ### goto -/

@[simp] theorem goto_build (p : Phase) (s : State) : (goto p s).build = s.build := rfl
@[simp] theorem goto_cfgWidth (p : Phase) (s : State) : (goto p s).cfgWidth = s.cfgWidth := rfl
@[simp] theorem goto_cfgSdata (p : Phase) (s : State) : (goto p s).cfgSdata = s.cfgSdata := rfl
@[simp] theorem goto_cfgLoad (p : Phase) (s : State) : (goto p s).cfgLoad = s.cfgLoad := rfl
@[simp] theorem goto_cfgClk (p : Phase) (s : State) : (goto p s).cfgClk = s.cfgClk := rfl
@[simp] theorem goto_result (p : Phase) (s : State) : (goto p s).result = s.result := rfl
@[simp] theorem goto_done (p : Phase) (s : State) : (goto p s).done = s.done := rfl
@[simp] theorem goto_life (p : Phase) (s : State) : (goto p s).life = s.life := rfl
@[simp] theorem goto_loopMode (p : Phase) (s : State) : (goto p s).loopMode = s.loopMode := rfl
@[simp] theorem goto_cancelPending (p : Phase) (s : State) : (goto p s).cancelPending = s.cancelPending := rfl
@[simp] theorem goto_releasePending (p : Phase) (s : State) : (goto p s).releasePending = s.releasePending := rfl
@[simp] theorem goto_relFault (p : Phase) (s : State) : (goto p s).relFault = s.relFault := rfl
@[simp] theorem goto_err (p : Phase) (s : State) : (goto p s).err = s.err := rfl
@[simp] theorem goto_rej (p : Phase) (s : State) : (goto p s).rej = s.rej := rfl
@[simp] theorem goto_exit (p : Phase) (s : State) : (goto p s).exit = s.exit := rfl
@[simp] theorem goto_faultOp (p : Phase) (s : State) : (goto p s).faultOp = s.faultOp := rfl
@[simp] theorem goto_count (p : Phase) (s : State) : (goto p s).count = s.count := rfl
@[simp] theorem goto_seq (p : Phase) (s : State) : (goto p s).seq = phaseCode p := rfl
@[simp] theorem goto_callst (p : Phase) (s : State) : (goto p s).callst = .issue := rfl
@[simp] theorem goto_curOp (p : Phase) (s : State) : (goto p s).curOp = s.curOp := rfl
@[simp] theorem goto_curIdx (p : Phase) (s : State) : (goto p s).curIdx = s.curIdx := rfl
@[simp] theorem goto_tdr (p : Phase) (s : State) : (goto p s).tdr = s.tdr := rfl
@[simp] theorem goto_acc (p : Phase) (s : State) : (goto p s).acc = s.acc := rfl
@[simp] theorem goto_bit (p : Phase) (s : State) : (goto p s).bit = s.bit := rfl
@[simp] theorem goto_tmr (p : Phase) (s : State) : (goto p s).tmr = (timerLoad p s.build).getD s.tmr := rfl
@[simp] theorem goto_trace (p : Phase) (s : State) : (goto p s).trace = s.trace := rfl
@[simp] theorem goto_env (p : Phase) (s : State) : (goto p s).env = s.env := rfl
@[simp] theorem goto_rdata (p : Phase) (s : State) : (goto p s).rdata = s.rdata := rfl
@[simp] theorem goto_stale (p : Phase) (s : State) : (goto p s).stale = s.stale := rfl

/-! ### endSeq -/

@[simp] theorem endSeq_build (s : State) : (endSeq s).build = s.build := rfl
@[simp] theorem endSeq_cfgWidth (s : State) : (endSeq s).cfgWidth = s.cfgWidth := rfl
@[simp] theorem endSeq_cfgSdata (s : State) : (endSeq s).cfgSdata = s.cfgSdata := rfl
@[simp] theorem endSeq_cfgLoad (s : State) : (endSeq s).cfgLoad = s.cfgLoad := rfl
@[simp] theorem endSeq_cfgClk (s : State) : (endSeq s).cfgClk = s.cfgClk := rfl
@[simp] theorem endSeq_result (s : State) : (endSeq s).result = s.result := rfl
@[simp] theorem endSeq_done (s : State) : (endSeq s).done = true := rfl
@[simp] theorem endSeq_life (s : State) : (endSeq s).life = s.life := rfl
@[simp] theorem endSeq_loopMode (s : State) : (endSeq s).loopMode = false := rfl
@[simp] theorem endSeq_cancelPending (s : State) : (endSeq s).cancelPending = s.cancelPending := rfl
@[simp] theorem endSeq_releasePending (s : State) : (endSeq s).releasePending = s.releasePending := rfl
@[simp] theorem endSeq_relFault (s : State) : (endSeq s).relFault = s.relFault := rfl
@[simp] theorem endSeq_err (s : State) : (endSeq s).err = s.err := rfl
@[simp] theorem endSeq_rej (s : State) : (endSeq s).rej = s.rej := rfl
@[simp] theorem endSeq_exit (s : State) : (endSeq s).exit = s.exit := rfl
@[simp] theorem endSeq_faultOp (s : State) : (endSeq s).faultOp = s.faultOp := rfl
@[simp] theorem endSeq_count (s : State) : (endSeq s).count = s.count := rfl
@[simp] theorem endSeq_seq (s : State) : (endSeq s).seq = 0x00#5 := rfl
@[simp] theorem endSeq_callst (s : State) : (endSeq s).callst = .issue := rfl
@[simp] theorem endSeq_curOp (s : State) : (endSeq s).curOp = none := rfl
@[simp] theorem endSeq_curIdx (s : State) : (endSeq s).curIdx = s.curIdx := rfl
@[simp] theorem endSeq_tdr (s : State) : (endSeq s).tdr = s.tdr := rfl
@[simp] theorem endSeq_acc (s : State) : (endSeq s).acc = s.acc := rfl
@[simp] theorem endSeq_bit (s : State) : (endSeq s).bit = s.bit := rfl
@[simp] theorem endSeq_tmr (s : State) : (endSeq s).tmr = s.tmr := rfl
@[simp] theorem endSeq_trace (s : State) : (endSeq s).trace = s.trace := rfl
@[simp] theorem endSeq_env (s : State) : (endSeq s).env = s.env := rfl
@[simp] theorem endSeq_rdata (s : State) : (endSeq s).rdata = s.rdata := rfl
@[simp] theorem endSeq_stale (s : State) : (endSeq s).stale = s.stale := rfl

/-! ### reject -/

@[simp] theorem reject_build (c : RejCode) (s : State) : (reject c s).build = s.build := rfl
@[simp] theorem reject_cfgWidth (c : RejCode) (s : State) : (reject c s).cfgWidth = s.cfgWidth := rfl
@[simp] theorem reject_cfgSdata (c : RejCode) (s : State) : (reject c s).cfgSdata = s.cfgSdata := rfl
@[simp] theorem reject_cfgLoad (c : RejCode) (s : State) : (reject c s).cfgLoad = s.cfgLoad := rfl
@[simp] theorem reject_cfgClk (c : RejCode) (s : State) : (reject c s).cfgClk = s.cfgClk := rfl
@[simp] theorem reject_result (c : RejCode) (s : State) : (reject c s).result = s.result := rfl
@[simp] theorem reject_done (c : RejCode) (s : State) : (reject c s).done = s.done := rfl
@[simp] theorem reject_life (c : RejCode) (s : State) : (reject c s).life = s.life := rfl
@[simp] theorem reject_loopMode (c : RejCode) (s : State) : (reject c s).loopMode = s.loopMode := rfl
@[simp] theorem reject_cancelPending (c : RejCode) (s : State) : (reject c s).cancelPending = s.cancelPending := rfl
@[simp] theorem reject_releasePending (c : RejCode) (s : State) : (reject c s).releasePending = s.releasePending := rfl
@[simp] theorem reject_relFault (c : RejCode) (s : State) : (reject c s).relFault = s.relFault := rfl
@[simp] theorem reject_err (c : RejCode) (s : State) : (reject c s).err = s.err := rfl
@[simp] theorem reject_rej (c : RejCode) (s : State) : (reject c s).rej = c := rfl
@[simp] theorem reject_exit (c : RejCode) (s : State) : (reject c s).exit = s.exit := rfl
@[simp] theorem reject_faultOp (c : RejCode) (s : State) : (reject c s).faultOp = s.faultOp := rfl
@[simp] theorem reject_count (c : RejCode) (s : State) : (reject c s).count = s.count := rfl
@[simp] theorem reject_seq (c : RejCode) (s : State) : (reject c s).seq = s.seq := rfl
@[simp] theorem reject_callst (c : RejCode) (s : State) : (reject c s).callst = s.callst := rfl
@[simp] theorem reject_curOp (c : RejCode) (s : State) : (reject c s).curOp = s.curOp := rfl
@[simp] theorem reject_curIdx (c : RejCode) (s : State) : (reject c s).curIdx = s.curIdx := rfl
@[simp] theorem reject_tdr (c : RejCode) (s : State) : (reject c s).tdr = s.tdr := rfl
@[simp] theorem reject_acc (c : RejCode) (s : State) : (reject c s).acc = s.acc := rfl
@[simp] theorem reject_bit (c : RejCode) (s : State) : (reject c s).bit = s.bit := rfl
@[simp] theorem reject_tmr (c : RejCode) (s : State) : (reject c s).tmr = s.tmr := rfl
@[simp] theorem reject_trace (c : RejCode) (s : State) : (reject c s).trace = s.trace := rfl
@[simp] theorem reject_env (c : RejCode) (s : State) : (reject c s).env = s.env := rfl
@[simp] theorem reject_rdata (c : RejCode) (s : State) : (reject c s).rdata = s.rdata := rfl
@[simp] theorem reject_stale (c : RejCode) (s : State) : (reject c s).stale = s.stale := rfl

/-! ### accepted -/

@[simp] theorem accepted_build (s : State) : (accepted s).build = s.build := rfl
@[simp] theorem accepted_cfgWidth (s : State) : (accepted s).cfgWidth = s.cfgWidth := rfl
@[simp] theorem accepted_cfgSdata (s : State) : (accepted s).cfgSdata = s.cfgSdata := rfl
@[simp] theorem accepted_cfgLoad (s : State) : (accepted s).cfgLoad = s.cfgLoad := rfl
@[simp] theorem accepted_cfgClk (s : State) : (accepted s).cfgClk = s.cfgClk := rfl
@[simp] theorem accepted_result (s : State) : (accepted s).result = s.result := rfl
@[simp] theorem accepted_done (s : State) : (accepted s).done = s.done := rfl
@[simp] theorem accepted_life (s : State) : (accepted s).life = s.life := rfl
@[simp] theorem accepted_loopMode (s : State) : (accepted s).loopMode = s.loopMode := rfl
@[simp] theorem accepted_cancelPending (s : State) : (accepted s).cancelPending = s.cancelPending := rfl
@[simp] theorem accepted_releasePending (s : State) : (accepted s).releasePending = s.releasePending := rfl
@[simp] theorem accepted_relFault (s : State) : (accepted s).relFault = s.relFault := rfl
@[simp] theorem accepted_err (s : State) : (accepted s).err = s.err := rfl
@[simp] theorem accepted_rej (s : State) : (accepted s).rej = .none := rfl
@[simp] theorem accepted_exit (s : State) : (accepted s).exit = s.exit := rfl
@[simp] theorem accepted_faultOp (s : State) : (accepted s).faultOp = s.faultOp := rfl
@[simp] theorem accepted_count (s : State) : (accepted s).count = s.count := rfl
@[simp] theorem accepted_seq (s : State) : (accepted s).seq = s.seq := rfl
@[simp] theorem accepted_callst (s : State) : (accepted s).callst = s.callst := rfl
@[simp] theorem accepted_curOp (s : State) : (accepted s).curOp = s.curOp := rfl
@[simp] theorem accepted_curIdx (s : State) : (accepted s).curIdx = s.curIdx := rfl
@[simp] theorem accepted_tdr (s : State) : (accepted s).tdr = s.tdr := rfl
@[simp] theorem accepted_acc (s : State) : (accepted s).acc = s.acc := rfl
@[simp] theorem accepted_bit (s : State) : (accepted s).bit = s.bit := rfl
@[simp] theorem accepted_tmr (s : State) : (accepted s).tmr = s.tmr := rfl
@[simp] theorem accepted_trace (s : State) : (accepted s).trace = s.trace := rfl
@[simp] theorem accepted_env (s : State) : (accepted s).env = s.env := rfl
@[simp] theorem accepted_rdata (s : State) : (accepted s).rdata = s.rdata := rfl
@[simp] theorem accepted_stale (s : State) : (accepted s).stale = s.stale := rfl

/-! ### fatal -/

@[simp] theorem fatal_build (k : FatalKind) (op : PinOp) (s : State) : (fatal k op s).build = s.build := rfl
@[simp] theorem fatal_cfgWidth (k : FatalKind) (op : PinOp) (s : State) : (fatal k op s).cfgWidth = s.cfgWidth := rfl
@[simp] theorem fatal_cfgSdata (k : FatalKind) (op : PinOp) (s : State) : (fatal k op s).cfgSdata = s.cfgSdata := rfl
@[simp] theorem fatal_cfgLoad (k : FatalKind) (op : PinOp) (s : State) : (fatal k op s).cfgLoad = s.cfgLoad := rfl
@[simp] theorem fatal_cfgClk (k : FatalKind) (op : PinOp) (s : State) : (fatal k op s).cfgClk = s.cfgClk := rfl
@[simp] theorem fatal_result (k : FatalKind) (op : PinOp) (s : State) : (fatal k op s).result = s.result := rfl
@[simp] theorem fatal_done (k : FatalKind) (op : PinOp) (s : State) : (fatal k op s).done = s.done := rfl
@[simp] theorem fatal_life (k : FatalKind) (op : PinOp) (s : State) : (fatal k op s).life = s.life := rfl
@[simp] theorem fatal_loopMode (k : FatalKind) (op : PinOp) (s : State) : (fatal k op s).loopMode = s.loopMode := rfl
@[simp] theorem fatal_cancelPending (k : FatalKind) (op : PinOp) (s : State) : (fatal k op s).cancelPending = s.cancelPending := rfl
@[simp] theorem fatal_releasePending (k : FatalKind) (op : PinOp) (s : State) : (fatal k op s).releasePending = s.releasePending := rfl
@[simp] theorem fatal_relFault (k : FatalKind) (op : PinOp) (s : State) : (fatal k op s).relFault = s.relFault := rfl
@[simp] theorem fatal_err (k : FatalKind) (op : PinOp) (s : State) : (fatal k op s).err = fatalErr k := rfl
@[simp] theorem fatal_rej (k : FatalKind) (op : PinOp) (s : State) : (fatal k op s).rej = s.rej := rfl
@[simp] theorem fatal_exit (k : FatalKind) (op : PinOp) (s : State) : (fatal k op s).exit = s.exit := rfl
@[simp] theorem fatal_faultOp (k : FatalKind) (op : PinOp) (s : State) : (fatal k op s).faultOp = some op := rfl
@[simp] theorem fatal_count (k : FatalKind) (op : PinOp) (s : State) : (fatal k op s).count = s.count := rfl
@[simp] theorem fatal_seq (k : FatalKind) (op : PinOp) (s : State) : (fatal k op s).seq = 0x13#5 := rfl
@[simp] theorem fatal_callst (k : FatalKind) (op : PinOp) (s : State) : (fatal k op s).callst = .issue := rfl
@[simp] theorem fatal_curOp (k : FatalKind) (op : PinOp) (s : State) : (fatal k op s).curOp = s.curOp := rfl
@[simp] theorem fatal_curIdx (k : FatalKind) (op : PinOp) (s : State) : (fatal k op s).curIdx = s.curIdx := rfl
@[simp] theorem fatal_tdr (k : FatalKind) (op : PinOp) (s : State) : (fatal k op s).tdr = fatalTdr k := rfl
@[simp] theorem fatal_acc (k : FatalKind) (op : PinOp) (s : State) : (fatal k op s).acc = s.acc := rfl
@[simp] theorem fatal_bit (k : FatalKind) (op : PinOp) (s : State) : (fatal k op s).bit = s.bit := rfl
@[simp] theorem fatal_tmr (k : FatalKind) (op : PinOp) (s : State) : (fatal k op s).tmr = s.tmr := rfl
@[simp] theorem fatal_trace (k : FatalKind) (op : PinOp) (s : State) : (fatal k op s).trace = s.trace := rfl
@[simp] theorem fatal_env (k : FatalKind) (op : PinOp) (s : State) : (fatal k op s).env = s.env := rfl
@[simp] theorem fatal_rdata (k : FatalKind) (op : PinOp) (s : State) : (fatal k op s).rdata = s.rdata := rfl
@[simp] theorem fatal_stale (k : FatalKind) (op : PinOp) (s : State) : (fatal k op s).stale = s.stale := rfl

/-! ### startAcq -/

@[simp] theorem startAcq_build (s : State) : (startAcq s).build = s.build := rfl
@[simp] theorem startAcq_cfgWidth (s : State) : (startAcq s).cfgWidth = s.cfgWidth := rfl
@[simp] theorem startAcq_cfgSdata (s : State) : (startAcq s).cfgSdata = s.cfgSdata := rfl
@[simp] theorem startAcq_cfgLoad (s : State) : (startAcq s).cfgLoad = s.cfgLoad := rfl
@[simp] theorem startAcq_cfgClk (s : State) : (startAcq s).cfgClk = s.cfgClk := rfl
@[simp] theorem startAcq_result (s : State) : (startAcq s).result = s.result := rfl
@[simp] theorem startAcq_done (s : State) : (startAcq s).done = s.done := rfl
@[simp] theorem startAcq_life (s : State) : (startAcq s).life = s.life := rfl
@[simp] theorem startAcq_loopMode (s : State) : (startAcq s).loopMode = s.loopMode := rfl
@[simp] theorem startAcq_cancelPending (s : State) : (startAcq s).cancelPending = s.cancelPending := rfl
@[simp] theorem startAcq_releasePending (s : State) : (startAcq s).releasePending = s.releasePending := rfl
@[simp] theorem startAcq_relFault (s : State) : (startAcq s).relFault = s.relFault := rfl
@[simp] theorem startAcq_err (s : State) : (startAcq s).err = s.err := rfl
@[simp] theorem startAcq_rej (s : State) : (startAcq s).rej = s.rej := rfl
@[simp] theorem startAcq_exit (s : State) : (startAcq s).exit = s.exit := rfl
@[simp] theorem startAcq_faultOp (s : State) : (startAcq s).faultOp = s.faultOp := rfl
@[simp] theorem startAcq_count (s : State) : (startAcq s).count = s.count := rfl
@[simp] theorem startAcq_seq (s : State) : (startAcq s).seq = 0x08#5 := rfl
@[simp] theorem startAcq_callst (s : State) : (startAcq s).callst = .issue := rfl
@[simp] theorem startAcq_curOp (s : State) : (startAcq s).curOp = s.curOp := rfl
@[simp] theorem startAcq_curIdx (s : State) : (startAcq s).curIdx = s.curIdx := rfl
@[simp] theorem startAcq_tdr (s : State) : (startAcq s).tdr = s.tdr := rfl
@[simp] theorem startAcq_acc (s : State) : (startAcq s).acc = 0#64 := rfl
@[simp] theorem startAcq_bit (s : State) : (startAcq s).bit = 0#7 := rfl
@[simp] theorem startAcq_tmr (s : State) : (startAcq s).tmr = s.tmr := rfl
@[simp] theorem startAcq_trace (s : State) : (startAcq s).trace = s.trace := rfl
@[simp] theorem startAcq_env (s : State) : (startAcq s).env = s.env := rfl
@[simp] theorem startAcq_rdata (s : State) : (startAcq s).rdata = s.rdata := rfl
@[simp] theorem startAcq_stale (s : State) : (startAcq s).stale = s.stale := rfl

/-! ### logCall -/

@[simp] theorem logCall_build (q : PinReq) (b : Bool) (l : Level) (s : State) : (logCall q b l s).build = s.build := rfl
@[simp] theorem logCall_cfgWidth (q : PinReq) (b : Bool) (l : Level) (s : State) : (logCall q b l s).cfgWidth = s.cfgWidth := rfl
@[simp] theorem logCall_cfgSdata (q : PinReq) (b : Bool) (l : Level) (s : State) : (logCall q b l s).cfgSdata = s.cfgSdata := rfl
@[simp] theorem logCall_cfgLoad (q : PinReq) (b : Bool) (l : Level) (s : State) : (logCall q b l s).cfgLoad = s.cfgLoad := rfl
@[simp] theorem logCall_cfgClk (q : PinReq) (b : Bool) (l : Level) (s : State) : (logCall q b l s).cfgClk = s.cfgClk := rfl
@[simp] theorem logCall_result (q : PinReq) (b : Bool) (l : Level) (s : State) : (logCall q b l s).result = s.result := rfl
@[simp] theorem logCall_done (q : PinReq) (b : Bool) (l : Level) (s : State) : (logCall q b l s).done = s.done := rfl
@[simp] theorem logCall_life (q : PinReq) (b : Bool) (l : Level) (s : State) : (logCall q b l s).life = s.life := rfl
@[simp] theorem logCall_loopMode (q : PinReq) (b : Bool) (l : Level) (s : State) : (logCall q b l s).loopMode = s.loopMode := rfl
@[simp] theorem logCall_cancelPending (q : PinReq) (b : Bool) (l : Level) (s : State) : (logCall q b l s).cancelPending = s.cancelPending := rfl
@[simp] theorem logCall_releasePending (q : PinReq) (b : Bool) (l : Level) (s : State) : (logCall q b l s).releasePending = s.releasePending := rfl
@[simp] theorem logCall_relFault (q : PinReq) (b : Bool) (l : Level) (s : State) : (logCall q b l s).relFault = s.relFault := rfl
@[simp] theorem logCall_err (q : PinReq) (b : Bool) (l : Level) (s : State) : (logCall q b l s).err = s.err := rfl
@[simp] theorem logCall_rej (q : PinReq) (b : Bool) (l : Level) (s : State) : (logCall q b l s).rej = s.rej := rfl
@[simp] theorem logCall_exit (q : PinReq) (b : Bool) (l : Level) (s : State) : (logCall q b l s).exit = s.exit := rfl
@[simp] theorem logCall_faultOp (q : PinReq) (b : Bool) (l : Level) (s : State) : (logCall q b l s).faultOp = s.faultOp := rfl
@[simp] theorem logCall_count (q : PinReq) (b : Bool) (l : Level) (s : State) : (logCall q b l s).count = s.count := rfl
@[simp] theorem logCall_seq (q : PinReq) (b : Bool) (l : Level) (s : State) : (logCall q b l s).seq = s.seq := rfl
@[simp] theorem logCall_callst (q : PinReq) (b : Bool) (l : Level) (s : State) : (logCall q b l s).callst = s.callst := rfl
@[simp] theorem logCall_curOp (q : PinReq) (b : Bool) (l : Level) (s : State) : (logCall q b l s).curOp = s.curOp := rfl
@[simp] theorem logCall_curIdx (q : PinReq) (b : Bool) (l : Level) (s : State) : (logCall q b l s).curIdx = s.curIdx := rfl
@[simp] theorem logCall_tdr (q : PinReq) (b : Bool) (l : Level) (s : State) : (logCall q b l s).tdr = s.tdr := rfl
@[simp] theorem logCall_acc (q : PinReq) (b : Bool) (l : Level) (s : State) : (logCall q b l s).acc = s.acc := rfl
@[simp] theorem logCall_bit (q : PinReq) (b : Bool) (l : Level) (s : State) : (logCall q b l s).bit = s.bit := rfl
@[simp] theorem logCall_tmr (q : PinReq) (b : Bool) (l : Level) (s : State) : (logCall q b l s).tmr = s.tmr := rfl
@[simp] theorem logCall_trace (q : PinReq) (b : Bool) (l : Level) (s : State) : (logCall q b l s).trace = s.trace ++ [⟨q, b, l⟩] := rfl
@[simp] theorem logCall_env (q : PinReq) (b : Bool) (l : Level) (s : State) : (logCall q b l s).env = s.env := rfl
@[simp] theorem logCall_rdata (q : PinReq) (b : Bool) (l : Level) (s : State) : (logCall q b l s).rdata = s.rdata := rfl
@[simp] theorem logCall_stale (q : PinReq) (b : Bool) (l : Level) (s : State) : (logCall q b l s).stale = s.stale := rfl

/-! ### endTick -/

@[simp] theorem endTick_build (rd : Option Word) (s : State) : (endTick rd s).build = s.build := rfl
@[simp] theorem endTick_cfgWidth (rd : Option Word) (s : State) : (endTick rd s).cfgWidth = s.cfgWidth := rfl
@[simp] theorem endTick_cfgSdata (rd : Option Word) (s : State) : (endTick rd s).cfgSdata = s.cfgSdata := rfl
@[simp] theorem endTick_cfgLoad (rd : Option Word) (s : State) : (endTick rd s).cfgLoad = s.cfgLoad := rfl
@[simp] theorem endTick_cfgClk (rd : Option Word) (s : State) : (endTick rd s).cfgClk = s.cfgClk := rfl
@[simp] theorem endTick_result (rd : Option Word) (s : State) : (endTick rd s).result = s.result := rfl
@[simp] theorem endTick_done (rd : Option Word) (s : State) : (endTick rd s).done = s.done := rfl
@[simp] theorem endTick_life (rd : Option Word) (s : State) : (endTick rd s).life = s.life := rfl
@[simp] theorem endTick_loopMode (rd : Option Word) (s : State) : (endTick rd s).loopMode = s.loopMode := rfl
@[simp] theorem endTick_cancelPending (rd : Option Word) (s : State) : (endTick rd s).cancelPending = s.cancelPending := rfl
@[simp] theorem endTick_releasePending (rd : Option Word) (s : State) : (endTick rd s).releasePending = s.releasePending := rfl
@[simp] theorem endTick_relFault (rd : Option Word) (s : State) : (endTick rd s).relFault = s.relFault := rfl
@[simp] theorem endTick_err (rd : Option Word) (s : State) : (endTick rd s).err = s.err := rfl
@[simp] theorem endTick_rej (rd : Option Word) (s : State) : (endTick rd s).rej = s.rej := rfl
@[simp] theorem endTick_exit (rd : Option Word) (s : State) : (endTick rd s).exit = s.exit := rfl
@[simp] theorem endTick_faultOp (rd : Option Word) (s : State) : (endTick rd s).faultOp = s.faultOp := rfl
@[simp] theorem endTick_count (rd : Option Word) (s : State) : (endTick rd s).count = s.count := rfl
@[simp] theorem endTick_seq (rd : Option Word) (s : State) : (endTick rd s).seq = s.seq := rfl
@[simp] theorem endTick_callst (rd : Option Word) (s : State) : (endTick rd s).callst = s.callst := rfl
@[simp] theorem endTick_curOp (rd : Option Word) (s : State) : (endTick rd s).curOp = s.curOp := rfl
@[simp] theorem endTick_curIdx (rd : Option Word) (s : State) : (endTick rd s).curIdx = s.curIdx := rfl
@[simp] theorem endTick_tdr (rd : Option Word) (s : State) : (endTick rd s).tdr = s.tdr := rfl
@[simp] theorem endTick_acc (rd : Option Word) (s : State) : (endTick rd s).acc = s.acc := rfl
@[simp] theorem endTick_bit (rd : Option Word) (s : State) : (endTick rd s).bit = s.bit := rfl
@[simp] theorem endTick_tmr (rd : Option Word) (s : State) : (endTick rd s).tmr = s.tmr := rfl
@[simp] theorem endTick_trace (rd : Option Word) (s : State) : (endTick rd s).trace = s.trace := rfl
@[simp] theorem endTick_env (rd : Option Word) (s : State) : (endTick rd s).env = s.env.tail := rfl
@[simp] theorem endTick_rdata (rd : Option Word) (s : State) : (endTick rd s).rdata = rd := rfl
@[simp] theorem endTick_stale (rd : Option Word) (s : State) : (endTick rd s).stale = s.stale := rfl

/-! ### setStale -/

@[simp] theorem setStale_build (n : Nat) (s : State) : (setStale n s).build = s.build := rfl
@[simp] theorem setStale_cfgWidth (n : Nat) (s : State) : (setStale n s).cfgWidth = s.cfgWidth := rfl
@[simp] theorem setStale_cfgSdata (n : Nat) (s : State) : (setStale n s).cfgSdata = s.cfgSdata := rfl
@[simp] theorem setStale_cfgLoad (n : Nat) (s : State) : (setStale n s).cfgLoad = s.cfgLoad := rfl
@[simp] theorem setStale_cfgClk (n : Nat) (s : State) : (setStale n s).cfgClk = s.cfgClk := rfl
@[simp] theorem setStale_result (n : Nat) (s : State) : (setStale n s).result = s.result := rfl
@[simp] theorem setStale_done (n : Nat) (s : State) : (setStale n s).done = s.done := rfl
@[simp] theorem setStale_life (n : Nat) (s : State) : (setStale n s).life = s.life := rfl
@[simp] theorem setStale_loopMode (n : Nat) (s : State) : (setStale n s).loopMode = s.loopMode := rfl
@[simp] theorem setStale_cancelPending (n : Nat) (s : State) : (setStale n s).cancelPending = s.cancelPending := rfl
@[simp] theorem setStale_releasePending (n : Nat) (s : State) : (setStale n s).releasePending = s.releasePending := rfl
@[simp] theorem setStale_relFault (n : Nat) (s : State) : (setStale n s).relFault = s.relFault := rfl
@[simp] theorem setStale_err (n : Nat) (s : State) : (setStale n s).err = s.err := rfl
@[simp] theorem setStale_rej (n : Nat) (s : State) : (setStale n s).rej = s.rej := rfl
@[simp] theorem setStale_exit (n : Nat) (s : State) : (setStale n s).exit = s.exit := rfl
@[simp] theorem setStale_faultOp (n : Nat) (s : State) : (setStale n s).faultOp = s.faultOp := rfl
@[simp] theorem setStale_count (n : Nat) (s : State) : (setStale n s).count = s.count := rfl
@[simp] theorem setStale_seq (n : Nat) (s : State) : (setStale n s).seq = s.seq := rfl
@[simp] theorem setStale_callst (n : Nat) (s : State) : (setStale n s).callst = s.callst := rfl
@[simp] theorem setStale_curOp (n : Nat) (s : State) : (setStale n s).curOp = s.curOp := rfl
@[simp] theorem setStale_curIdx (n : Nat) (s : State) : (setStale n s).curIdx = s.curIdx := rfl
@[simp] theorem setStale_tdr (n : Nat) (s : State) : (setStale n s).tdr = s.tdr := rfl
@[simp] theorem setStale_acc (n : Nat) (s : State) : (setStale n s).acc = s.acc := rfl
@[simp] theorem setStale_bit (n : Nat) (s : State) : (setStale n s).bit = s.bit := rfl
@[simp] theorem setStale_tmr (n : Nat) (s : State) : (setStale n s).tmr = s.tmr := rfl
@[simp] theorem setStale_trace (n : Nat) (s : State) : (setStale n s).trace = s.trace := rfl
@[simp] theorem setStale_env (n : Nat) (s : State) : (setStale n s).env = s.env := rfl
@[simp] theorem setStale_rdata (n : Nat) (s : State) : (setStale n s).rdata = s.rdata := rfl
@[simp] theorem setStale_stale (n : Nat) (s : State) : (setStale n s).stale = n := rfl

/-! ### The reset state -/

@[simp] theorem ofReset_build (b : Config) (e : List TickIn) (r : Option Word) : (State.ofReset b e r).build = b := rfl
@[simp] theorem ofReset_cfgWidth (b : Config) (e : List TickIn) (r : Option Word) : (State.ofReset b e r).cfgWidth = 8#8 := rfl
@[simp] theorem ofReset_cfgSdata (b : Config) (e : List TickIn) (r : Option Word) : (State.ofReset b e r).cfgSdata = 0#8 := rfl
@[simp] theorem ofReset_cfgLoad (b : Config) (e : List TickIn) (r : Option Word) : (State.ofReset b e r).cfgLoad = 0#8 := rfl
@[simp] theorem ofReset_cfgClk (b : Config) (e : List TickIn) (r : Option Word) : (State.ofReset b e r).cfgClk = 0#8 := rfl
@[simp] theorem ofReset_result (b : Config) (e : List TickIn) (r : Option Word) : (State.ofReset b e r).result = 0#64 := rfl
@[simp] theorem ofReset_done (b : Config) (e : List TickIn) (r : Option Word) : (State.ofReset b e r).done = false := rfl
@[simp] theorem ofReset_life (b : Config) (e : List TickIn) (r : Option Word) : (State.ofReset b e r).life = .unconfigured := rfl
@[simp] theorem ofReset_loopMode (b : Config) (e : List TickIn) (r : Option Word) : (State.ofReset b e r).loopMode = false := rfl
@[simp] theorem ofReset_cancelPending (b : Config) (e : List TickIn) (r : Option Word) : (State.ofReset b e r).cancelPending = false := rfl
@[simp] theorem ofReset_releasePending (b : Config) (e : List TickIn) (r : Option Word) : (State.ofReset b e r).releasePending = false := rfl
@[simp] theorem ofReset_relFault (b : Config) (e : List TickIn) (r : Option Word) : (State.ofReset b e r).relFault = false := rfl
@[simp] theorem ofReset_err (b : Config) (e : List TickIn) (r : Option Word) : (State.ofReset b e r).err = .none := rfl
@[simp] theorem ofReset_rej (b : Config) (e : List TickIn) (r : Option Word) : (State.ofReset b e r).rej = .none := rfl
@[simp] theorem ofReset_exit (b : Config) (e : List TickIn) (r : Option Word) : (State.ofReset b e r).exit = .none := rfl
@[simp] theorem ofReset_faultOp (b : Config) (e : List TickIn) (r : Option Word) : (State.ofReset b e r).faultOp = none := rfl
@[simp] theorem ofReset_count (b : Config) (e : List TickIn) (r : Option Word) : (State.ofReset b e r).count = 0#8 := rfl
@[simp] theorem ofReset_seq (b : Config) (e : List TickIn) (r : Option Word) : (State.ofReset b e r).seq = 0x00#5 := rfl
@[simp] theorem ofReset_callst (b : Config) (e : List TickIn) (r : Option Word) : (State.ofReset b e r).callst = .issue := rfl
@[simp] theorem ofReset_curOp (b : Config) (e : List TickIn) (r : Option Word) : (State.ofReset b e r).curOp = none := rfl
@[simp] theorem ofReset_curIdx (b : Config) (e : List TickIn) (r : Option Word) : (State.ofReset b e r).curIdx = 0#6 := rfl
@[simp] theorem ofReset_tdr (b : Config) (e : List TickIn) (r : Option Word) : (State.ofReset b e r).tdr = .none := rfl
@[simp] theorem ofReset_acc (b : Config) (e : List TickIn) (r : Option Word) : (State.ofReset b e r).acc = 0#64 := rfl
@[simp] theorem ofReset_bit (b : Config) (e : List TickIn) (r : Option Word) : (State.ofReset b e r).bit = 0#7 := rfl
@[simp] theorem ofReset_tmr (b : Config) (e : List TickIn) (r : Option Word) : (State.ofReset b e r).tmr = 0#32 := rfl
@[simp] theorem ofReset_trace (b : Config) (e : List TickIn) (r : Option Word) : (State.ofReset b e r).trace = [] := rfl
@[simp] theorem ofReset_env (b : Config) (e : List TickIn) (r : Option Word) : (State.ofReset b e r).env = e := rfl
@[simp] theorem ofReset_rdata (b : Config) (e : List TickIn) (r : Option Word) : (State.ofReset b e r).rdata = r := rfl
@[simp] theorem ofReset_stale (b : Config) (e : List TickIn) (r : Option Word) : (State.ofReset b e r).stale = 0 := rfl

end Sys2Proof.Machine
end

