-- ==== Sys2Proof/Laws/Ops.lean ====
section
/-! SUPPORT. For each shared operation, once, everything it can do. -/

namespace Sys2Proof.Machine

/-! ### The primitives of the sequencer -/

theorem callStep_issue {s : State} (h : s.callst = .issue) (req : PinReq) (f : Level → State → State)
    (g : State → State) : callStep req f g s = { s with callst := .wait } := by
  simp [callStep, h]

theorem callStep_hold {s : State} (h : s.callst = .wait) (hr : rspNow s = none) (req : PinReq)
    (f : Level → State → State) (g : State → State) : callStep req f g s = s := by
  simp [callStep, h, hr]

theorem callStep_ok {s : State} {l : Level} (h : s.callst = .wait) (hr : rspNow s = some ⟨false, l⟩) (req : PinReq)
    (f : Level → State → State) (g : State → State) : callStep req f g s = f l (logCall req false l s) := by
  simp [callStep, h, hr]

theorem callStep_fault {s : State} {l : Level} (h : s.callst = .wait) (hr : rspNow s = some ⟨true, l⟩) (req : PinReq)
    (f : Level → State → State) (g : State → State) : callStep req f g s = g (logCall req true l s) := by
  simp [callStep, h, hr]

/-- What the call primitive can do (40_sequencer.md R128). -/
theorem callStep_cases (req : PinReq) (f : Level → State → State) (g : State → State) (s : State) :
    (s.callst = .issue ∧ callStep req f g s = { s with callst := .wait }) ∨
    (s.callst = .wait ∧ rspNow s = none ∧ callStep req f g s = s) ∨
    (∃ l, s.callst = .wait ∧ rspNow s = some ⟨false, l⟩ ∧ callStep req f g s = f l (logCall req false l s)) ∨
    (∃ l, s.callst = .wait ∧ rspNow s = some ⟨true, l⟩ ∧ callStep req f g s = g (logCall req true l s)) := by
  have hc : s.callst = .issue ∨ s.callst = .wait := by cases s.callst <;> simp
  rcases hc with h | h
  · exact .inl ⟨h, callStep_issue h ..⟩
  · rcases hr : rspNow s with _ | ⟨_ | _, l⟩
    · exact .inr (.inl ⟨h, rfl, callStep_hold h hr ..⟩)
    · exact .inr (.inr (.inl ⟨l, h, rfl, callStep_ok h hr ..⟩))
    · exact .inr (.inr (.inr ⟨l, h, rfl, callStep_fault h hr ..⟩))

theorem waitStep_expire {s : State} (h : s.tmr = 1#32) (f : State → State) :
    waitStep f s = f { s with tmr := 0#32 } := by
  simp [waitStep, h]

theorem waitStep_count {s : State} (h : s.tmr ≠ 1#32) (f : State → State) :
    waitStep f s = { s with tmr := s.tmr - 1#32 } := by
  have h' : ¬ s.tmr - 1#32 = 0#32 := by
    intro hc
    apply h
    bv_omega
  simp only [waitStep, if_neg h']

/-- What the timer primitive can do (40_sequencer.md R131). -/
theorem waitStep_cases (f : State → State) (s : State) :
    (s.tmr = 1#32 ∧ waitStep f s = f { s with tmr := 0#32 }) ∨
    (s.tmr ≠ 1#32 ∧ waitStep f s = { s with tmr := s.tmr - 1#32 }) := by
  by_cases h : s.tmr = 1#32
  · exact .inl ⟨h, waitStep_expire h f⟩
  · exact .inr ⟨h, waitStep_count h f⟩

/-- What a boundary can do about a pending teardown (43_acquire.md R195, R199). -/
theorem takePending_cases (f : State → State) (s : State) :
    (s.cancelPending = true ∧ takePending f s = goto .rel { s with tdr := .cancelled }) ∨
    (s.cancelPending = false ∧ s.releasePending = true ∧ takePending f s = goto .rel { s with tdr := .released }) ∨
    (s.cancelPending = false ∧ s.releasePending = false ∧ takePending f s = f s) := by
  unfold takePending
  cases s.cancelPending <;> cases s.releasePending <;> simp

/-- What the end of a teardown can do (44_teardown.md R234). -/
theorem relDone_cases (s : State) :
    (∃ e, (s.tdr = .released ∧ e = .released ∨ s.tdr = .cancelled ∧ e = .cancelled ∨ s.tdr = .fault ∧ e = .fault) ∧
      relDone s = { s with life := .tornDown, exit := e, cancelPending := false, releasePending := false,
                           seq := 0x00#5, callst := .issue, curOp := none, loopMode := false, done := true }) ∨
    ((s.tdr = .none ∨ s.tdr = .initFail) ∧
      relDone s = { s with cancelPending := false, releasePending := false,
                           seq := 0x00#5, callst := .issue, curOp := none, loopMode := false, done := true }) := by
  cases h : s.tdr <;> simp [relDone, h, endSeq, phaseCode]

/-! ### The accumulator -/

/-- A write to a bit of ACC sets that bit and no other (43_acquire.md R192). -/
theorem accSet_getLsbD {wmax i : Nat} (hi : i < wmax) (h64 : i < 64) (acc : BitVec 64) (l : Level) (j : Nat) :
    (accSet wmax acc i l).getLsbD j = if j = i then l else acc.getLsbD j := by
  simp only [accSet, hi, if_true]
  cases l
  · by_cases hj : j = i
    · subst hj; simp
    · by_cases hb : j < 64
      · simp [hj, hb]
      · simp [hj, BitVec.getLsbD_of_ge _ j (Nat.le_of_not_lt hb)]
  · by_cases hj : j = i
    · subst hj; simp [h64]
    · simp [hj, Ne.symm hj]

/-- A write to bit `n` keeps the accumulator below `2 ^ (n + 1)`. -/
theorem accSet_lt {wmax n : Nat} {acc : BitVec 64} (l : Level) (h64 : n < 64) (h : acc.toNat < 2 ^ n) :
    (accSet wmax acc n l).toNat < 2 ^ (n + 1) := by
  have hn : 2 ^ n < 2 ^ (n + 1) := Nat.pow_lt_pow_right (by omega) (by omega)
  unfold accSet
  split
  · cases l
    · simp only [Bool.false_eq_true, if_false, BitVec.toNat_and]
      exact lt_of_le_of_lt Nat.and_le_left (lt_trans h hn)
    · simp only [if_true, BitVec.toNat_or, BitVec.toNat_twoPow_of_lt h64]
      exact Nat.or_lt_two_pow (lt_trans h hn) hn
  · exact lt_trans h hn

/-! ### Acceptance of a command (40_sequencer.md R122 to R125) -/

theorem acceptIdle_cases (legal : Bool) (f : State → Result) (s : State) :
    (busy s = true ∧ acceptIdle legal f s = .next (reject .busy s)) ∨
    (busy s = false ∧ legal = true ∧ acceptIdle legal f s = f (accepted s)) ∨
    (busy s = false ∧ legal = false ∧ acceptIdle legal f s = .next (reject .badState s)) := by
  unfold acceptIdle
  cases busy s <;> cases legal <;> simp

theorem acceptTeardown_cases (d i : State → State) (s : State) :
    (busy s = true ∧ inAcq s = true ∧ acceptTeardown d i s = .next (d (accepted s))) ∨
    (busy s = true ∧ inAcq s = false ∧ acceptTeardown d i s = .next (reject .busy s)) ∨
    (busy s = false ∧ s.life = .active ∧ acceptTeardown d i s = .next (i (accepted s))) ∨
    (busy s = false ∧ s.life ≠ .active ∧ acceptTeardown d i s = .next (reject .badState s)) := by
  unfold acceptTeardown
  cases busy s <;> cases inAcq s <;> by_cases h : s.life = .active <;> simp [h]

/-! ### Busy -/

theorem busy_eq_true_iff (s : State) : busy s = true ↔ s.seq ≠ 0x00#5 := decide_eq_true_iff

theorem busy_eq_false_iff (s : State) : busy s = false ↔ s.seq = 0x00#5 := by
  rw [← Bool.not_eq_true, busy_eq_true_iff, ne_eq, not_not]

/-! ### Phase codes -/

/-- A code that stands for a phase is that phase's code. -/
theorem phaseCode_of_phaseOfCode {c : BitVec 5} {p : Phase} (h : phaseOfCode c = some p) : c = phaseCode p := by
  revert c p
  decide

@[simp] theorem phaseOfCode_phaseCode (p : Phase) : phaseOfCode (phaseCode p) = some p := by
  cases p <;> rfl

end Sys2Proof.Machine
end

