-- ==== Sys2Proof/Laws/Step.lean ====
section
/-! SUPPORT. What one tick can do, said once, and the induction over ticks packaged: an invariant is kept by every
step when the phases, the commands, the register writes and the end of the tick keep it and reset establishes
it. -/

namespace Sys2Proof.Machine

theorem andThen_next {r : Result} {f : State → Result} {t : State} (h : andThen r f = .next t) :
    ∃ s, r = .next s ∧ f s = .next t := by
  cases r with
  | next s => exact ⟨s, rfl, h⟩
  | fault e => cases h
  | refused e => cases h

/-- A command word that decodes gives one of the seven commands (30_encoding.md R91). -/
theorem decodeCommand_command {v : Word} {i : Instr} (h : decodeCommand v = .ok i) :
    i = .init ∨ i = .acqAll ∨ (∃ idx, i = .acqBit idx) ∨ i = .acqLoop ∨ i = .cancel ∨ i = .describe ∨ i = .release := by
  unfold decodeCommand at h
  split at h
  · cases h
  · rename_i j hj
    split at h
    · cases h
      unfold commandOf at hj
      split at hj <;> cases hj <;> simp
    · cases h

/-- What the host half of a tick can do (40_sequencer.md R120, R122; 20_memory.md R60 to R67). -/
theorem busAccess_cases {w : HostReg → Word → State → Result} {s t : State} (h : busAccess w s = .next t) :
    (∃ rd, t = endTick rd s) ∨
    (∃ addr size v r s1, accNow s = some (.write addr size v) ∧ target s.build addr size = .reg r ∧
      w r v s = .next s1 ∧ t = endTick none s1) := by
  unfold busAccess at h
  split at h
  · cases h; exact .inl ⟨_, rfl⟩
  · split at h
    · cases h; exact .inl ⟨_, rfl⟩
    · cases h; exact .inl ⟨_, rfl⟩
    · cases h
  · rename_i addr size v hacc
    split at h
    · cases h; exact .inl ⟨_, rfl⟩
    · rename_i r htgt
      obtain ⟨s1, h1, h2⟩ := andThen_next h
      cases h2
      exact .inr ⟨addr, size, v, r, s1, hacc, htgt, h1, rfl⟩
    · cases h

/-- What a register write can do: run a command, reject a word, or write configuration. -/
theorem busWrite_cases {r : HostReg} {v : Word} {s t : State} (h : busWrite r v s = .next t) :
    (∃ i, r = .cmd ∧ decodeCommand v = .ok i ∧ exec i s = .next t) ∨
    (∃ e, r = .cmd ∧ decodeCommand v = .error e ∧ t = reject (decodeRej e) s) ∨
    (r ≠ .cmd ∧ t = writeReg r v s) := by
  cases r
  case cmd =>
    simp only [busWrite, acceptWord] at h
    split at h
    · rename_i i hi; exact .inl ⟨i, rfl, hi, h⟩
    · rename_i e he; cases h; exact .inr (.inl ⟨e, rfl, he, rfl⟩)
  all_goals
    simp only [busWrite] at h
    cases h
    exact .inr (.inr ⟨by simp, rfl⟩)

/-- What the sequencer's half of a tick can do (40_sequencer.md R126). -/
theorem seqStep_cases {s t : State} (h : seqStep s = .next t) :
    ∃ p, phaseOfCode s.seq = some p ∧ exec (phaseInstr p) s = .next t := by
  unfold seqStep decodePhase at h
  split at h
  · rename_i i hi
    split at hi
    · rename_i p hp; cases hi; exact ⟨p, hp, h⟩
    · cases hi
  · cases h

/-- A tick with reset leaves the reset state, its inputs consumed (70_reset_and_hazards.md R290). -/
theorem resetTick_cases {s t : State} (h : resetTick s = .next t) :
    ∃ rd, t = State.ofReset s.build s.env.tail rd := by
  rcases busAccess_cases h with ⟨rd, rfl⟩ | ⟨_, _, _, _, s1, _, _, h1, rfl⟩
  · exact ⟨rd, rfl⟩
  · cases h1; exact ⟨none, rfl⟩

/-- What becomes of the count of abandoned requests in a tick (70_reset_and_hazards.md R291). -/
theorem staleAfter_cases (s : State) :
    (awaiting s = true ∧ rspNow s = none ∧ rstNow s = true ∧ staleAfter s = s.stale + 1) ∨
    (awaiting s = true ∧ (rspNow s = none → rstNow s = false) ∧ staleAfter s = s.stale) ∨
    (awaiting s = false ∧ rspNow s = none ∧ staleAfter s = s.stale) ∨
    (awaiting s = false ∧ (rspNow s).isSome = true ∧ staleAfter s = s.stale - 1) := by
  cases h1 : awaiting s <;> cases h2 : rspNow s <;> cases h3 : rstNow s <;> simp [staleAfter, h1, h2, h3]

/-- A tick without a response is refused for none. -/
theorem spurious_of_no_response {s : State} (h : rspNow s = none) : spurious s = false := by
  simp [spurious, h]

/-- A tick whose response answers a request steps the block and counts the abandoned requests (log 5). -/
theorem step_admitted {s : State} (h : spurious s = false) :
    step s = andThen (blockTick s) (fun t => .next (setStale (staleAfter s) t)) := by
  simp [step, tick, h]

/-- A tick whose response answers no request is refused (60_exceptions.md R273). -/
theorem step_spurious {s : State} (h : spurious s = true) : step s = .refused .spuriousResponse := by
  simp [step, tick, h]

/-- A step is the block's tick, but for the count of abandoned requests. -/
theorem step_next {s t : State} (h : step s = .next t) :
    spurious s = false ∧ ∃ u, blockTick s = .next u ∧ t = setStale (staleAfter s) u := by
  cases hs : spurious s
  · rw [step_admitted hs] at h
    obtain ⟨u, h1, h2⟩ := andThen_next h
    cases h2
    exact ⟨rfl, u, h1, rfl⟩
  · rw [step_spurious hs] at h
    cases h

/-- What the block can do in a tick (40_sequencer.md R120). -/
theorem blockTick_cases {s t : State} (h : blockTick s = .next t) :
    (rstNow s = true ∧ ∃ rd, t = State.ofReset s.build s.env.tail rd) ∨
    (rstNow s = false ∧ ∃ p s1, phaseOfCode s.seq = some p ∧ exec (phaseInstr p) s = .next s1 ∧
      busAccess busWrite s1 = .next t) := by
  unfold blockTick at h
  split at h
  · rename_i hr; exact .inl ⟨hr, resetTick_cases h⟩
  · rename_i hr
    obtain ⟨s1, h1, h2⟩ := andThen_next h
    obtain ⟨p, hp, h3⟩ := seqStep_cases h1
    exact .inr ⟨by simpa using hr, p, s1, hp, h3, h2⟩

/-- What a tick can do (40_sequencer.md R120). -/
theorem step_cases {s t : State} (h : step s = .next t) :
    spurious s = false ∧ ∃ u, t = setStale (staleAfter s) u ∧
      ((rstNow s = true ∧ ∃ rd, u = State.ofReset s.build s.env.tail rd) ∨
       (rstNow s = false ∧ ∃ p s1, phaseOfCode s.seq = some p ∧ exec (phaseInstr p) s = .next s1 ∧
         busAccess busWrite s1 = .next u)) := by
  obtain ⟨hs, u, h1, h2⟩ := step_next h
  exact ⟨hs, u, h2, blockTick_cases h1⟩

/-- The induction over one tick. -/
theorem step_preserves (P : State → Prop)
    (reset : ∀ s rd, P s → P (State.ofReset s.build s.env.tail rd))
    (phase : ∀ p s t, P s → phaseOfCode s.seq = some p → exec (phaseInstr p) s = .next t → P t)
    (command : ∀ v i s t, P s → decodeCommand v = .ok i → exec i s = .next t → P t)
    (rejected : ∀ c s, P s → P (reject c s))
    (write : ∀ r v s, P s → P (writeReg r v s))
    (done : ∀ rd s, P s → P (endTick rd s))
    (stale : ∀ n s, P s → P (setStale n s))
    {s t : State} (hs : P s) (h : step s = .next t) : P t := by
  obtain ⟨_, u, rfl, hu⟩ := step_cases h
  refine stale _ u ?_
  rcases hu with ⟨_, rd, rfl⟩ | ⟨_, p, s1, hp, h1, h2⟩
  · exact reset s rd hs
  · have hs1 := phase p s s1 hs hp h1
    rcases busAccess_cases h2 with ⟨rd, rfl⟩ | ⟨_, _, v, r, s2, _, _, h3, rfl⟩
    · exact done rd s1 hs1
    · refine done none s2 ?_
      rcases busWrite_cases h3 with ⟨i, _, hi, h4⟩ | ⟨e, _, _, rfl⟩ | ⟨_, rfl⟩
      · exact command v i s1 s2 hs1 hi h4
      · exact rejected _ s1 hs1
      · exact write r v s1 hs1

/-- An invariant that every step keeps holds along every run. -/
theorem run_preserves (P : State → Prop) (step_keeps : ∀ s t, P s → step s = .next t → P t) (n : Nat) :
    ∀ s t, P s → Sys2Proof.core.run n s = .next t → P t := by
  induction n with
  | zero => intro s t hs h; cases h; exact hs
  | succ n ih =>
    intro s t hs h
    simp only [Host.Core.run] at h
    split at h
    · rename_i s1 h1; exact ih s1 t (step_keeps s s1 hs h1) h
    · cases h
    · cases h

/-- An invariant of the reset states holds in every reachable state. -/
theorem reachable (P : State → Prop) (step_keeps : ∀ s t, P s → step s = .next t → P t) {s : State} (hs : P s)
    {n : Nat} {t : State} (h : Sys2Proof.core.run n s = .next t) : P t :=
  run_preserves P step_keeps n s t hs h

end Sys2Proof.Machine
end

