-- ==== Sys2Proof/Laws/Exec.lean ====
section
/-! SUPPORT. What no instruction changes: the build parameters, the inputs to come, the data of the last read and
the count of abandoned requests. -/

namespace Sys2Proof.Machine

/-- `t` has the build parameters, inputs, read data and abandoned requests of `s`. -/
def SamePorts (s t : State) : Prop :=
  t.build = s.build ∧ t.env = s.env ∧ t.rdata = s.rdata ∧ t.stale = s.stale

theorem SamePorts.trans {a b c : State} (h : SamePorts a b) (g : SamePorts b c) : SamePorts a c :=
  ⟨g.1.trans h.1, g.2.1.trans h.2.1, g.2.2.1.trans h.2.2.1, g.2.2.2.trans h.2.2.2⟩

theorem relDone_samePorts (s : State) : SamePorts s (relDone s) := by
  rcases relDone_cases s with ⟨_, _, h⟩ | ⟨_, h⟩ <;> rw [h] <;> exact ⟨rfl, rfl, rfl, rfl⟩

theorem callStep_samePorts {req : PinReq} {f : Level → State → State} {g : State → State} {s : State}
    (hf : ∀ l u, SamePorts u (f l u)) (hg : ∀ u, SamePorts u (g u)) : SamePorts s (callStep req f g s) := by
  rcases callStep_cases req f g s with ⟨_, h⟩ | ⟨_, _, h⟩ | ⟨l, _, _, h⟩ | ⟨l, _, _, h⟩ <;> rw [h]
  · exact ⟨rfl, rfl, rfl, rfl⟩
  · exact ⟨rfl, rfl, rfl, rfl⟩
  · exact SamePorts.trans ⟨rfl, rfl, rfl, rfl⟩ (hf l _)
  · exact SamePorts.trans ⟨rfl, rfl, rfl, rfl⟩ (hg _)

theorem waitStep_samePorts {f : State → State} {s : State} (hf : ∀ u, SamePorts u (f u)) :
    SamePorts s (waitStep f s) := by
  rcases waitStep_cases f s with ⟨_, h⟩ | ⟨_, h⟩ <;> rw [h]
  · exact SamePorts.trans ⟨rfl, rfl, rfl, rfl⟩ (hf _)
  · exact ⟨rfl, rfl, rfl, rfl⟩

theorem takePending_samePorts {f : State → State} {s : State} (hf : ∀ u, SamePorts u (f u)) :
    SamePorts s (takePending f s) := by
  rcases takePending_cases f s with ⟨_, h⟩ | ⟨_, _, h⟩ | ⟨_, _, h⟩ <;> rw [h]
  · exact ⟨rfl, rfl, rfl, rfl⟩
  · exact ⟨rfl, rfl, rfl, rfl⟩
  · exact hf s

theorem acceptIdle_samePorts {legal : Bool} {f : State → Result} {s t : State}
    (hf : ∀ u v, f u = .next v → SamePorts u v) (h : acceptIdle legal f s = .next t) : SamePorts s t := by
  rcases acceptIdle_cases legal f s with ⟨_, e⟩ | ⟨_, _, e⟩ | ⟨_, _, e⟩ <;> rw [e] at h
  · cases h; exact ⟨rfl, rfl, rfl, rfl⟩
  · exact SamePorts.trans (b := accepted s) ⟨rfl, rfl, rfl, rfl⟩ (hf _ _ h)
  · cases h; exact ⟨rfl, rfl, rfl, rfl⟩

theorem acceptTeardown_samePorts {d i : State → State} {s t : State} (hd : ∀ u, SamePorts u (d u))
    (hi : ∀ u, SamePorts u (i u)) (h : acceptTeardown d i s = .next t) : SamePorts s t := by
  rcases acceptTeardown_cases d i s with ⟨_, _, e⟩ | ⟨_, _, e⟩ | ⟨_, _, e⟩ | ⟨_, _, e⟩ <;> rw [e] at h <;> cases h
  · exact SamePorts.trans ⟨rfl, rfl, rfl, rfl⟩ (hd _)
  · exact ⟨rfl, rfl, rfl, rfl⟩
  · exact SamePorts.trans ⟨rfl, rfl, rfl, rfl⟩ (hi _)
  · exact ⟨rfl, rfl, rfl, rfl⟩

theorem nextBit_samePorts (s : State) : SamePorts s (nextBit s) := ⟨rfl, rfl, rfl, rfl⟩

theorem performInit_samePorts {s t : State} (h : performInit s = .next t) : SamePorts s t := by
  unfold performInit at h
  dsimp only at h
  split at h
  · split at h
    · cases h
    · cases h; exact ⟨rfl, rfl, rfl, rfl⟩
  · cases h; exact ⟨rfl, rfl, rfl, rfl⟩

/-- No instruction changes the build parameters, the inputs to come, the data of the last read or the count of
abandoned requests. -/
theorem exec_samePorts {i : Instr} {s t : State} (h : exec i s = .next t) : SamePorts s t := by
  have same : ∀ {u : State}, SamePorts u u := ⟨rfl, rfl, rfl, rfl⟩
  have fat : ∀ (k : FatalKind) (op : PinOp) (u : State), SamePorts u (fatal k op u) := fun _ _ _ => ⟨rfl, rfl, rfl, rfl⟩
  have go : ∀ (p : Phase) (u : State), SamePorts u (goto p u) := fun _ _ => ⟨rfl, rfl, rfl, rfl⟩
  cases i
  case init => exact acceptIdle_samePorts (fun _ _ => performInit_samePorts) h
  case acqAll =>
    simp only [exec, execAcqAll] at h
    exact acceptIdle_samePorts (fun u v e => by cases e; exact ⟨rfl, rfl, rfl, rfl⟩) h
  case acqBit idx =>
    simp only [exec, execAcqBit] at h
    split at h
    · cases h; exact ⟨rfl, rfl, rfl, rfl⟩
    · split at h
      · split at h <;> cases h <;> exact ⟨rfl, rfl, rfl, rfl⟩
      · cases h; exact ⟨rfl, rfl, rfl, rfl⟩
  case acqLoop =>
    simp only [exec, execAcqLoop] at h
    exact acceptIdle_samePorts (fun u v e => by cases e; exact ⟨rfl, rfl, rfl, rfl⟩) h
  case cancel =>
    simp only [exec, execCancel] at h
    refine acceptTeardown_samePorts ?_ ?_ h <;> exact fun _ => ⟨rfl, rfl, rfl, rfl⟩
  case describe =>
    simp only [exec, execDescribe] at h
    exact acceptIdle_samePorts (fun u v e => by cases e; exact ⟨rfl, rfl, rfl, rfl⟩) h
  case release =>
    simp only [exec, execRelease] at h
    refine acceptTeardown_samePorts ?_ ?_ h <;> exact fun _ => ⟨rfl, rfl, rfl, rfl⟩
  all_goals
    simp only [exec, execIdle, execICfgSdata, execICfgLoad, execICfgClk, execIIdleLoad, execIIdleClk, execLdFall,
      execLdLowWait, execLdRise, execLdHighWait, execSmp, execCkRise, execCkHighWait, execCkFall, execCkLowWait,
      execCapture, execCadenceWait, execRel] at h
    cases h
  case idle => exact same
  case iCfgSdata => exact callStep_samePorts (fun _ => go _) (fat _ _)
  case iCfgLoad => exact callStep_samePorts (fun _ => go _) (fat _ _)
  case iCfgClk => exact callStep_samePorts (fun _ => go _) (fat _ _)
  case iIdleLoad => exact callStep_samePorts (fun _ => go _) (fat _ _)
  case iIdleClk => exact callStep_samePorts (fun _ _ => ⟨rfl, rfl, rfl, rfl⟩) (fat _ _)
  case ldFall => exact callStep_samePorts (fun _ => go _) (fat _ _)
  case ldLowWait => exact waitStep_samePorts (go _)
  case ldRise => exact callStep_samePorts (fun _ => go _) (fat _ _)
  case ldHighWait => exact waitStep_samePorts (go _)
  case smp => exact callStep_samePorts (fun _ _ => ⟨rfl, rfl, rfl, rfl⟩) (fat _ _)
  case ckRise => exact callStep_samePorts (fun _ => go _) (fat _ _)
  case ckHighWait => exact waitStep_samePorts (go _)
  case ckFall => exact callStep_samePorts (fun _ => go _) (fat _ _)
  case ckLowWait => exact waitStep_samePorts nextBit_samePorts
  case capture =>
    refine SamePorts.trans (b := { s with result := captured s, count := s.count + 1#8 }) ⟨rfl, rfl, rfl, rfl⟩
      (takePending_samePorts fun u => ?_)
    split <;> exact ⟨rfl, rfl, rfl, rfl⟩
  case cadenceWait => exact takePending_samePorts fun u => waitStep_samePorts fun _ => ⟨rfl, rfl, rfl, rfl⟩
  case rel =>
    exact callStep_samePorts (fun _ => relDone_samePorts)
      (fun u => SamePorts.trans ⟨rfl, rfl, rfl, rfl⟩ (relDone_samePorts _))

end Sys2Proof.Machine
end

