-- ==== Sys2Proof/Laws/Bus.lean ====
section
/-! SUPPORT. The host port and the halves of a tick, once: which register an admitted access selects, what its read
returns, and what a tick is when its phase's next state is known. -/

namespace Sys2Proof.Machine

open Sys2Proof.Safety

/-- An aligned word access inside the window selects its register (20_memory.md R61). -/
theorem target_reg {c : Config} {off : Nat} (h : off < 32) (h4 : off % 4 = 0) :
    target c (c.sicBase + off) 4 = .reg (regAt off) := by
  have hin : ¬ (c.sicBase + 32 ≤ c.sicBase + off ∨ c.sicBase + off + 4 ≤ c.sicBase) := by omega
  unfold target
  rw [if_neg hin]
  simp [h4]

theorem pinsWord_toNat (s : State) :
    (pinsWord s).toNat = s.cfgSdata.toNat + 256 * s.cfgLoad.toNat + 65536 * s.cfgClk.toNat := by
  have h2 := s.cfgSdata.isLt
  have h3 := s.cfgLoad.isLt
  have h4 := s.cfgClk.isLt
  unfold pinsWord
  rw [BitVec.toNat_append, BitVec.toNat_append, BitVec.toNat_append, ← Nat.shiftLeft_add_eq_or_of_lt s.cfgLoad.isLt,
    ← Nat.shiftLeft_add_eq_or_of_lt s.cfgSdata.isLt]
  simp [Nat.shiftLeft_eq]
  omega

/-- A read answers with the register table's value (10_state.md R21). -/
theorem readReg_eq {off : Nat} (h : off < 32) (h4 : off % 4 = 0) (s : State) :
    readReg (regAt off) s = BitVec.ofNat 32 (readTable off s) := by
  have hoff : off = 0 ∨ off = 4 ∨ off = 8 ∨ off = 12 ∨ off = 16 ∨ off = 20 ∨ off = 24 ∨ off = 28 := by omega
  have h1 := s.cfgWidth.isLt
  have h5 := s.result.isLt
  have h6 := s.build.wmax.isLt
  apply BitVec.eq_of_toNat_eq
  rcases hoff with rfl | rfl | rfl | rfl | rfl | rfl | rfl | rfl <;>
    simp [regAt, readReg, readTable, Nat.shiftRight_eq_div_pow, pinsWord_toNat]
  all_goals omega

/-- The phase's half of a tick, when the decoded phase has a next state (40_sequencer.md R126). -/
theorem seqStep_of {s s1 : State} {i : Instr} (h : decode (.uop s.seq) = .ok i) (he : exec i s = .next s1) :
    seqStep s = .next s1 := by
  have h' : decodePhase s.seq = .ok i := h
  simp [seqStep, h', he]

/-- A tick without reset, when its phase's next state is known (40_sequencer.md R120). -/
theorem step_of {s s1 : State} {i : Instr} (hs : spurious s = false) (hr : rstNow s = false)
    (h : decode (.uop s.seq) = .ok i) (he : exec i s = .next s1) :
    step s = andThen (busAccess busWrite s1) (fun t => .next (setStale (staleAfter s) t)) := by
  have hb : blockTick s = busAccess busWrite s1 := by simp [blockTick, hr, seqStep_of h he, andThen]
  rw [step_admitted hs, hb]

/-- The host access of a tick is the same before and after its phase. -/
theorem accNow_congr {s t : State} (h : SamePorts s t) : accNow t = accNow s := by
  simp [accNow, tickIn, h.2.1]

/-- Every phase has a next state: no phase is refused (40_sequencer.md R126). -/
theorem phase_next (s : State) {c : BitVec 5} {i : Instr} (h : decode (.uop c) = .ok i) : ∃ t, exec i s = .next t := by
  simp only [decode, decodePhase] at h
  split at h
  · rename_i p _
    cases h
    cases p <;> exact ⟨_, rfl⟩
  · cases h

/-- The validity check is R151's, written out. -/
theorem cfgValid_iff (s : State) : cfgValid s = true ↔ ConfigOk s := by
  simp [cfgValid, ConfigOk, pinValid, and_assoc]

theorem sharesPin_eq_false_iff (s : State) : sharesPin s = false ↔ PinsFree s := by
  simp [sharesPin, PinsFree, and_assoc]

end Sys2Proof.Machine
end

