-- ==== Sys2Proof/Laws/PerInstr.lean ====
section
/-! SUPPORT. Per instruction: its encoding is its row of spec/opcode_table.json. -/

namespace Sys2Proof.Laws.OpcodeRow

open Sys2Proof

/-- The word `w` has the bits `row` under `mask`. -/
def matchesCmd (row mask : Word) : Encoded → Bool
  | .cmd w => decide (w &&& mask = row)
  | .uop _ => false

/-- The code is `row` (the table's mask 0x1F covers all five bits). -/
def matchesUop (row : BitVec 5) : Encoded → Bool
  | .cmd _ => false
  | .uop c => decide (c = row)

/-- The row of the opcode table that an instruction's encoding must match. -/
def row : Instr → Encoded → Bool
  | .init => matchesCmd 0x00000001#32 0xFFFFFFFF#32
  | .acqAll => matchesCmd 0x00000002#32 0xFFFFFFFF#32
  | .acqBit _ => matchesCmd 0x00000003#32 0xFFFFC0FF#32
  | .acqLoop => matchesCmd 0x00000004#32 0xFFFFFFFF#32
  | .cancel => matchesCmd 0x00000005#32 0xFFFFFFFF#32
  | .describe => matchesCmd 0x00000006#32 0xFFFFFFFF#32
  | .release => matchesCmd 0x00000007#32 0xFFFFFFFF#32
  | .idle => matchesUop 0x00#5
  | .iCfgSdata => matchesUop 0x01#5
  | .iCfgLoad => matchesUop 0x02#5
  | .iCfgClk => matchesUop 0x03#5
  | .iIdleLoad => matchesUop 0x04#5
  | .iIdleClk => matchesUop 0x05#5
  | .ldFall => matchesUop 0x08#5
  | .ldLowWait => matchesUop 0x09#5
  | .ldRise => matchesUop 0x0A#5
  | .ldHighWait => matchesUop 0x0B#5
  | .smp => matchesUop 0x0C#5
  | .ckRise => matchesUop 0x0D#5
  | .ckHighWait => matchesUop 0x0E#5
  | .ckFall => matchesUop 0x0F#5
  | .ckLowWait => matchesUop 0x10#5
  | .capture => matchesUop 0x11#5
  | .cadenceWait => matchesUop 0x12#5
  | .rel => matchesUop 0x13#5

/-- The encoding of a well-formed instruction matches its row of the table. -/
def Statement (i : Instr) : Prop := i.wf = true → row i (encode i) = true

theorem init : Statement .init := fun _ => by decide
theorem acqAll : Statement .acqAll := fun _ => by decide
theorem acqBit (idx : BitVec 7) : Statement (.acqBit idx) := by
  revert idx
  unfold Statement
  decide
theorem acqLoop : Statement .acqLoop := fun _ => by decide
theorem cancel : Statement .cancel := fun _ => by decide
theorem describe : Statement .describe := fun _ => by decide
theorem release : Statement .release := fun _ => by decide
theorem idle : Statement .idle := fun _ => by decide
theorem iCfgSdata : Statement .iCfgSdata := fun _ => by decide
theorem iCfgLoad : Statement .iCfgLoad := fun _ => by decide
theorem iCfgClk : Statement .iCfgClk := fun _ => by decide
theorem iIdleLoad : Statement .iIdleLoad := fun _ => by decide
theorem iIdleClk : Statement .iIdleClk := fun _ => by decide
theorem ldFall : Statement .ldFall := fun _ => by decide
theorem ldLowWait : Statement .ldLowWait := fun _ => by decide
theorem ldRise : Statement .ldRise := fun _ => by decide
theorem ldHighWait : Statement .ldHighWait := fun _ => by decide
theorem smp : Statement .smp := fun _ => by decide
theorem ckRise : Statement .ckRise := fun _ => by decide
theorem ckHighWait : Statement .ckHighWait := fun _ => by decide
theorem ckFall : Statement .ckFall := fun _ => by decide
theorem ckLowWait : Statement .ckLowWait := fun _ => by decide
theorem capture : Statement .capture := fun _ => by decide
theorem cadenceWait : Statement .cadenceWait := fun _ => by decide
theorem rel : Statement .rel := fun _ => by decide

end Sys2Proof.Laws.OpcodeRow
end

