-- ==== Sys2Proof/Laws/Trace.lean ====
section
/-! SUPPORT. How the measures of TRACE grow by one call. -/

namespace Sys2Proof.Safety

open Sys2Proof Sys2Proof.Machine

/-- One more call changes the last level of a pin only if it is a successful WRITE to it. -/
theorem lastLevel_snoc (pin : PinId) (calls : List PinCall) (c : PinCall) :
    lastLevel pin (calls ++ [c]) =
      if c.req.op = .write ∧ c.req.pin = pin ∧ c.fault = false then some (c.req.arg.getLsbD 0)
      else lastLevel pin calls := by
  simp [lastLevel, List.foldl_append]

/-- One more shift position adds its three calls. -/
theorem acqCalls_succ (s : State) (acc : BitVec 64) (n : Nat) :
    acqCalls s acc (n + 1) = acqCalls s acc n ++ bitCalls s acc n := by
  simp [acqCalls, List.range_succ, List.flatMap_append]

/-- The calls of an acquisition depend on the pins and on the bits sampled so far. -/
theorem acqCalls_congr {s t : State} {a b : BitVec 64} {n : Nat} (h1 : t.cfgLoad = s.cfgLoad)
    (h2 : t.cfgClk = s.cfgClk) (h3 : t.cfgSdata = s.cfgSdata) (h : ∀ i < n, b.getLsbD i = a.getLsbD i) :
    acqCalls t b n = acqCalls s a n := by
  induction n with
  | zero => simp [acqCalls, loadCalls, wrote, h1]
  | succ n ih =>
    rw [acqCalls_succ, acqCalls_succ, ih (fun i hi => h i (by omega))]
    simp [bitCalls, sampled, wrote, h2, h3, h n (by omega)]

/-- One more call adds a mark only if it is a CFG_IN or a RELEASE. -/
theorem marks_snoc (calls : List PinCall) (c : PinCall) :
    marks (calls ++ [c]) =
      marks calls ++ (match c.req.op with
        | .cfgIn => [true] | .release => [false] | .cfgOut => [] | .write => [] | .read => []) := by
  simp only [marks, List.filterMap_append]
  cases h : c.req.op <;> simp [h]

end Sys2Proof.Safety
end

