-- ==== Sys2Proof/Machine/HostProgram.lean ====
section
/-! DEFINITION. Host programs (30_encoding.md R109, R110): the lines of a program as data, and the register
accesses each stands for. The host is outside the block: no step reads a program (log 20). -/

namespace Sys2Proof.Machine

/-- A line of a host program: the instructions of R109 and the pseudo-instructions of R110. -/
inductive HostLine where
  /-- `WR reg, value`. -/
  | wr (reg : HostReg) (value : Word)
  /-- `RD reg`. -/
  | rd (reg : HostReg)
  /-- `CMD mnemonic idx`; idx is 0 but for ACQ_BIT. -/
  | cmd (op : Op) (idx : Nat)
  /-- `CONFIG w, sd, ld, ck`. -/
  | config (w sd ld ck : Word)
  /-- `POLL`. -/
  | poll
  /-- `WAITCOUNT n`. -/
  | waitCount (n : BitVec 8)
  /-- `ACQ_BIT_EXT pos`, the external 1-indexed form. -/
  | acqBitExt (pos : Nat)
  /-- `READRESULT`. -/
  | readResult
  deriving DecidableEq, Repr

/-- OP(m), the opcode of a mnemonic (R91). -/
def opWord : Op → Word
  | .init => 1#32
  | .acqAll => 2#32
  | .acqBit => 3#32
  | .acqLoop => 4#32
  | .cancel => 5#32
  | .describe => 6#32
  | .release => 7#32

/-- `encode(m, idx)` as R109 writes it: `zext_32(OP(m)) | (m == ACQ_BIT ? idx << 8 : 0)`. DESIGN CHOICE (log 20):
R109 gives `idx << 8` no width; it is truncated to the 32 bits of the word, so `idx` and `idx + 2^24` have one word. -/
def lineWord (op : Op) (idx : Nat) : Word :=
  opWord op ||| (if op = .acqBit then BitVec.ofNat 32 idx <<< 8 else 0#32)

/-- `BusRead` of a register, as an access (20_memory.md R60). -/
def readAccess (c : Config) (r : HostReg) : HostAccess := .read (regAddr c r) 4

/-- `BusWrite` of a register, as an access (20_memory.md R60). -/
def writeAccess (c : Config) (r : HostReg) (v : Word) : HostAccess := .write (regAddr c r) 4 v

/-- The accesses of one round of a line, none where the line has no expansion (R110: position 0). DESIGN CHOICE (log 20):
R110 gives CONFIG's `(ck << 16) | (ld << 8) | sd` no width; its operands are 32-bit words and each shift is truncated to
32 bits, so `ck` and `ck + 2^16` have one word. -/
def lineAccesses (c : Config) : HostLine → Option (List HostAccess)
  | .wr r v => some [writeAccess c r v]
  | .rd r => some [readAccess c r]
  | .cmd op idx => some [writeAccess c .cmd (lineWord op idx)]
  | .config w sd ld ck => some [writeAccess c .cfgWidth w, writeAccess c .cfgPins ((ck <<< 16) ||| (ld <<< 8) ||| sd)]
  | .poll => some [readAccess c .status]
  | .waitCount _ => some [readAccess c .status]
  | .acqBitExt pos => if pos = 0 then none else some [writeAccess c .cmd (lineWord .acqBit (pos - 1))]
  | .readResult => some [readAccess c .resultLo, readAccess c .resultHi]

/-- The line is repeated after its round read `w`: POLL while BUSY reads 1, WAITCOUNT until COUNT reads n (R110). -/
def lineRepeats (w : Word) : HostLine → Bool
  | .poll => w.getLsbD 0
  | .waitCount n => decide (w.extractLsb' 24 8 ≠ n)
  | .wr _ _ | .rd _ | .cmd _ _ | .config _ _ _ _ | .acqBitExt _ | .readResult => false

/-- What READRESULT gives: `{RESULT_HI, RESULT_LO}` (R110). -/
def readResultValue (lo hi : Word) : BitVec 64 := hi ++ lo

end Sys2Proof.Machine
end

