-- ==== Sys2Proof/Tests/Slice0.lean ====
section
/-! SUPPORT. The model's own tests. Expected values come from 95_test_vectors.md and the rules' examples, cited at
each group; the second half shows, for each statement with hypotheses, a state that meets them. -/

namespace Sys2Proof.Tests

open Sys2Proof Sys2Proof.Machine Sys2Proof.Safety

/-! ### Builders -/

/-- The parameters of 95_test_vectors.md section 0, with T_SETTLE small enough for N_SETTLE = 3. -/
def build : Config where
  wmax := 64#8
  nSettle := 3#32
  nCadence := 5#32
  fClkHz := 100000000
  tSettleNs := 30
  validPins := (List.range 28).map (BitVec.ofNat 8)
  sicBase := 0
  sharedPins := []

/-- The reference pins and W = 8, in a given phase, with nothing to come. -/
def inPhase (p : Phase) : State :=
  { State.ofReset build [] none with
    cfgSdata := 17#8, cfgLoad := 22#8, cfgClk := 27#8, seq := phaseCode p }

/-- An ACTIVE driver without a sequence. -/
def idleActive : State := { inPhase .idle with life := .active, done := true }

/-- An ACTIVE driver that runs an ACQ_ALL. -/
def acquiring (p : Phase) : State := { inPhase p with life := .active, curOp := some .acqAll }

/-- A response waits for the call. -/
def answered (fault : Bool) (level : Level) (s : State) : State :=
  { s with callst := .wait, env := [{ rst := false, rsp := some { fault := fault, level := level }, acc := none }] }

/-- The host accesses the block in this tick. -/
def accessed (a : HostAccess) (s : State) : State := { s with env := [{ rst := false, rsp := none, acc := some a }] }

/-- A response comes though no call waits for one, with `n` requests abandoned by a reset. -/
def late (n : Nat) (s : State) : State :=
  { s with stale := n, env := [{ rst := false, rsp := some { fault := true, level := true }, acc := none }] }

/-- Reset is 1 in this tick. -/
def inReset (acc : Option HostAccess) (s : State) : State := { s with env := [{ rst := true, rsp := none, acc := acc }] }

/-- The next state, if there is one. -/
def nextOf (r : Result) : Option State :=
  match r with
  | .next t => some t
  | .fault _ => none
  | .refused _ => none

/-- The refusal, if there is one. -/
def refusalOf (r : Result) : Option Refusal :=
  match r with
  | .next _ => none
  | .fault _ => none
  | .refused e => some e

/-- STATUS in the next state. -/
def statusOf (r : Result) : Option Word := (nextOf r).map statusWord

/-- A call without a fault. -/
def ok (op : PinOp) (pin : PinId) (arg : BitVec 2) : PinCall :=
  { req := { op := op, pin := pin, arg := arg }, fault := false, level := false }

/-! ### Well-formedness: each check refuses an ill-formed term -/

theorem test_wf_accepts_idx_63 : (Instr.acqBit 63#7).wf = true := by decide
theorem test_wf_refuses_idx_64 : (Instr.acqBit 64#7).wf = false := by decide
theorem test_wf_accepts_reference : Config.reference.wf = true := by decide
theorem test_wf_accepts_build : build.wf = true := by decide
theorem test_wf_refuses_wmax_0 : ({ build with wmax := 0#8 } : Config).wf = false := by decide
theorem test_wf_refuses_wmax_65 : ({ build with wmax := 65#8 } : Config).wf = false := by decide
theorem test_wf_refuses_nSettle_0 : ({ build with nSettle := 0#32, tSettleNs := 0 } : Config).wf = false := by decide
theorem test_wf_refuses_nCadence_0 : ({ build with nCadence := 0#32 } : Config).wf = false := by decide
theorem test_wf_refuses_short_settle : ({ build with tSettleNs := 31 } : Config).wf = false := by decide

/-! ### Decoding: words written out from R90 to R93, R100 and R111, and the vectors of 2.1 -/

theorem test_decode_init : decode (.cmd 0b00000000000000000000000000000001#32) = .ok .init := by decide
theorem test_decode_acqAll : decode (.cmd 0b00000000000000000000000000000010#32) = .ok .acqAll := by decide
theorem test_decode_acqBit_7 : decode (.cmd 0b00000000000000000000011100000011#32) = .ok (.acqBit 7#7) := by decide
theorem test_decode_acqBit_63 : decode (.cmd 0b00000000000000000011111100000011#32) = .ok (.acqBit 63#7) := by decide
theorem test_decode_acqLoop : decode (.cmd 0b00000000000000000000000000000100#32) = .ok .acqLoop := by decide
theorem test_decode_cancel : decode (.cmd 0b00000000000000000000000000000101#32) = .ok .cancel := by decide
theorem test_decode_describe : decode (.cmd 0b00000000000000000000000000000110#32) = .ok .describe := by decide
theorem test_decode_release : decode (.cmd 0b00000000000000000000000000000111#32) = .ok .release := by decide
theorem test_decode_idle : decode (.uop 0b00000#5) = .ok .idle := by decide
theorem test_decode_iCfgSdata : decode (.uop 0b00001#5) = .ok .iCfgSdata := by decide
theorem test_decode_iCfgLoad : decode (.uop 0b00010#5) = .ok .iCfgLoad := by decide
theorem test_decode_iCfgClk : decode (.uop 0b00011#5) = .ok .iCfgClk := by decide
theorem test_decode_iIdleLoad : decode (.uop 0b00100#5) = .ok .iIdleLoad := by decide
theorem test_decode_iIdleClk : decode (.uop 0b00101#5) = .ok .iIdleClk := by decide
theorem test_decode_ldFall : decode (.uop 0b01000#5) = .ok .ldFall := by decide
theorem test_decode_ldLowWait : decode (.uop 0b01001#5) = .ok .ldLowWait := by decide
theorem test_decode_ldRise : decode (.uop 0b01010#5) = .ok .ldRise := by decide
theorem test_decode_ldHighWait : decode (.uop 0b01011#5) = .ok .ldHighWait := by decide
theorem test_decode_smp : decode (.uop 0b01100#5) = .ok .smp := by decide
theorem test_decode_ckRise : decode (.uop 0b01101#5) = .ok .ckRise := by decide
theorem test_decode_ckHighWait : decode (.uop 0b01110#5) = .ok .ckHighWait := by decide
theorem test_decode_ckFall : decode (.uop 0b01111#5) = .ok .ckFall := by decide
theorem test_decode_ckLowWait : decode (.uop 0b10000#5) = .ok .ckLowWait := by decide
theorem test_decode_capture : decode (.uop 0b10001#5) = .ok .capture := by decide
theorem test_decode_cadenceWait : decode (.uop 0b10010#5) = .ok .cadenceWait := by decide
theorem test_decode_rel : decode (.uop 0b10011#5) = .ok .rel := by decide
theorem test_decode_illegal_ops :
    [0x00000000#32, 0x00000008#32, 0x0000000F#32, 0x80000008#32].all
      (fun v => decide (decode (.cmd v) = .error .illegalOp)) = true := by decide
theorem test_decode_bad_encodings :
    [0x00000012#32, 0x00000102#32, 0x00010003#32, 0x00004003#32, 0x80000001#32].all
      (fun v => decide (decode (.cmd v) = .error .badEncoding)) = true := by decide
theorem test_decode_unused_codes :
    [0x06#5, 0x07#5, 0x14#5, 0x1F#5].all (fun c => decide (decode (.uop c) = .error .unusedPhase)) = true := by decide
theorem test_table_word_command : decodeTableWord 32 0x00003F03 = some (.acqBit 63#7) := by decide
theorem test_table_word_phase : decodeTableWord 8 0x13 = some .rel := by decide
theorem test_table_word_bad : decodeTableWord 32 0x00004003 = none := by decide
theorem test_fetch_phase : (nextOf (step (State.reset.withFetchWord 8 0x11))).map (·.count) = some 1#8 := by decide
/-- 2.2: INIT from reset, with the pins 0, 0, 0. -/
theorem test_fetch_command : statusOf (step (State.reset.withFetchWord 32 0x00000001)) = some 0x00000102#32 := by decide

/-! ### The commands (2.2, 3.7, and the examples of R150, R190, R196, R201, R231, R236) -/

theorem test_init_starts :
    (nextOf (exec .init (inPhase .idle))).map (fun t => (t.seq, statusWord t)) = some (0x01#5, 0x00000001#32) := by decide
theorem test_init_width_0 : statusOf (exec .init { inPhase .idle with cfgWidth := 0#8 }) = some 0x00000102#32 := by decide
theorem test_acqAll_starts :
    (nextOf (exec .acqAll idleActive)).map (fun t => (t.seq, statusWord t)) = some (0x08#5, 0x00000005#32) := by decide
theorem test_acqAll_unconfigured : statusOf (exec .acqAll State.reset) = some 0x00004000#32 := by decide
theorem test_acqBit_7 :
    (nextOf (exec (.acqBit 7#7) idleActive)).map (fun t => (t.curIdx, t.seq, t.rej)) = some (7#6, 0x08#5, .none) := by
  decide
theorem test_acqBit_8 : statusOf (exec (.acqBit 8#7) idleActive) = some 0x00005006#32 := by decide
/-- P3, tick 14. -/
theorem test_acqLoop_starts : statusOf (exec .acqLoop idleActive) = some 0x00000015#32 := by decide
theorem test_cancel_deferred : statusOf (exec .cancel (acquiring .ckRise)) = some 0x00000025#32 := by decide
theorem test_cancel_in_rel :
    statusOf (exec .cancel { acquiring .rel with rej := .none }) = some 0x00003005#32 := by decide
theorem test_describe_active :
    (nextOf (exec .describe idleActive)).map (fun t => (t.result, statusWord t)) =
      some (0x000000001B161108#64, 0x00000006#32) := by decide
theorem test_release_deferred : statusOf (exec .release (acquiring .smp)) = some 0x00000045#32 := by decide
theorem test_release_immediate :
    (nextOf (exec .release idleActive)).map (fun t => (t.seq, t.tdr, t.done)) = some (0x13#5, .released, false) := by
  decide

/-! ### The phases (the examples of R127, R152 to R156, R171 to R179, R192 to R199, R233; 3.3, 3.6) -/

theorem test_idle_keeps : nextOf (exec .idle (answered true true idleActive)) = some (answered true true idleActive) := by
  decide
theorem test_iCfgSdata_request : pinPort (inPhase .iCfgSdata) = ⟨true, 1#3, 0x11#8, 1#2⟩ := by decide
theorem test_iCfgSdata_ok :
    (nextOf (exec .iCfgSdata (answered false false (inPhase .iCfgSdata)))).map (fun t => (t.seq, t.trace)) =
      some (0x02#5, [ok .cfgIn 17#8 1#2]) := by decide
theorem test_iCfgLoad_request : pinPort (inPhase .iCfgLoad) = ⟨true, 2#3, 0x16#8, 0#2⟩ := by decide
theorem test_iCfgLoad_ok :
    (nextOf (exec .iCfgLoad (answered false false (inPhase .iCfgLoad)))).map (·.seq) = some 0x03#5 := by decide
theorem test_iCfgClk_request : pinPort (inPhase .iCfgClk) = ⟨true, 2#3, 0x1B#8, 0#2⟩ := by decide
/-- INIT's third call faults: ERR 2, FAULT_OP 2. -/
theorem test_iCfgClk_fault :
    (nextOf (exec .iCfgClk (answered true false (inPhase .iCfgClk)))).map (fun t => (t.seq, t.tdr, statusWord t)) =
      some (0x13#5, .initFail, 0x00080201#32) := by decide
theorem test_iIdleLoad_request : pinPort (inPhase .iIdleLoad) = ⟨true, 3#3, 0x16#8, 1#2⟩ := by decide
theorem test_iIdleLoad_ok :
    (nextOf (exec .iIdleLoad (answered false false (inPhase .iIdleLoad)))).map (·.seq) = some 0x05#5 := by decide
theorem test_iIdleClk_request : pinPort (inPhase .iIdleClk) = ⟨true, 3#3, 0x1B#8, 0#2⟩ := by decide
theorem test_iIdleClk_ok :
    statusOf (exec .iIdleClk (answered false false { inPhase .iIdleClk with curOp := some .init })) =
      some 0x00000006#32 := by decide
theorem test_ldFall_request : pinPort (acquiring .ldFall) = ⟨true, 3#3, 0x16#8, 0#2⟩ := by decide
/-- 3.6: a fault at LD_FALL, before the REL that follows. -/
theorem test_ldFall_fault :
    statusOf (exec .ldFall (answered true false (acquiring .ldFall))) = some 0x000C0305#32 := by decide
theorem test_ldLowWait_counts :
    (nextOf (exec .ldLowWait { acquiring .ldLowWait with tmr := 3#32 })).map (fun t => (t.seq, t.tmr)) =
      some (0x09#5, 2#32) := by decide
theorem test_ldLowWait_expires :
    (nextOf (exec .ldLowWait { acquiring .ldLowWait with tmr := 1#32 })).map (·.seq) = some 0x0A#5 := by decide
theorem test_ldRise_ok :
    (nextOf (exec .ldRise (answered false false (acquiring .ldRise)))).map (fun t => (t.seq, t.tmr, t.trace)) =
      some (0x0B#5, 3#32, [ok .write 22#8 1#2]) := by decide
theorem test_ldHighWait_expires :
    (nextOf (exec .ldHighWait { acquiring .ldHighWait with tmr := 1#32 })).map (·.seq) = some 0x0C#5 := by decide
/-- R192: BIT = 2, level 1, ACC = 0b01 before. -/
theorem test_smp_sets_bit :
    (nextOf (exec .smp (answered false true { acquiring .smp with bit := 2#7, acc := 1#64 }))).map
      (fun t => (t.seq, t.acc)) = some (0x0D#5, 5#64) := by decide
theorem test_smp_fault :
    statusOf (exec .smp (answered true true { acquiring .smp with count := 1#8 })) = some 0x01100305#32 := by decide
theorem test_ckRise_request : pinPort (acquiring .ckRise) = ⟨true, 3#3, 0x1B#8, 1#2⟩ := by decide
theorem test_ckRise_ok :
    (nextOf (exec .ckRise (answered false false (acquiring .ckRise)))).map (fun t => (t.seq, t.tmr)) =
      some (0x0E#5, 3#32) := by decide
theorem test_ckHighWait_expires :
    (nextOf (exec .ckHighWait { acquiring .ckHighWait with tmr := 1#32 })).map (·.seq) = some 0x0F#5 := by decide
theorem test_ckFall_ok :
    (nextOf (exec .ckFall (answered false false (acquiring .ckFall)))).map (fun t => (t.seq, t.trace)) =
      some (0x10#5, [ok .write 27#8 0#2]) := by decide
theorem test_ckLowWait_next_bit :
    (nextOf (exec .ckLowWait { acquiring .ckLowWait with tmr := 1#32, bit := 6#7 })).map (fun t => (t.bit, t.seq)) =
      some (7#7, 0x0C#5) := by decide
theorem test_ckLowWait_last_bit :
    (nextOf (exec .ckLowWait { acquiring .ckLowWait with tmr := 1#32, bit := 7#7 })).map (fun t => (t.bit, t.seq)) =
      some (8#7, 0x11#5) := by decide
/-- R194: ACC = 0xFF, COUNT = 3. -/
theorem test_capture_all :
    (nextOf (exec .capture { acquiring .capture with acc := 0xFF#64, count := 3#8 })).map
      (fun t => (t.result, t.count, t.seq)) = some (0xFF#64, 4#8, 0x00#5) := by decide
/-- R196: bit 3 of 0x55; 3.9: COUNT wraps. -/
theorem test_capture_bit :
    (nextOf (exec .capture
      { acquiring .capture with acc := 0x55#64, curOp := some .acqBit, curIdx := 3#6, count := 255#8 })).map
      (fun t => (t.result, t.count)) = some (0#64, 0#8) := by decide
theorem test_cadenceWait_cancel :
    (nextOf (exec .cadenceWait { acquiring .cadenceWait with tmr := 1#32, cancelPending := true })).map
      (fun t => (t.seq, t.tdr)) = some (0x13#5, .cancelled) := by decide
theorem test_cadenceWait_expires :
    (nextOf (exec .cadenceWait { acquiring .cadenceWait with tmr := 1#32, acc := 7#64, bit := 3#7 })).map
      (fun t => (t.seq, t.acc, t.bit)) = some (0x08#5, 0#64, 0#7) := by decide
/-- 3.5, CANCEL in idle ACTIVE: the end STATUS. -/
theorem test_rel_cancelled :
    statusOf (exec .rel (answered false false { acquiring .rel with tdr := .cancelled })) = some 0x0002000A#32 := by decide
/-- 3.6: a release fault after RELEASE. -/
theorem test_rel_fault :
    statusOf (exec .rel (answered true false { acquiring .rel with tdr := .released })) = some 0x0001008A#32 := by decide

/-! ### The host port (2.3, 3.8, R63) and host programs (P1) -/

theorem test_cfg_write_idle :
    (nextOf (step (accessed (.write 0x0C 4 0xFF030201#32) State.reset))).map
      (fun t => (t.cfgSdata, t.cfgLoad, t.cfgClk)) = some (1#8, 2#8, 3#8) := by decide
theorem test_cfg_write_active :
    (nextOf (step (accessed (.write 0x08 4 3#32) idleActive))).map (fun t => (t.cfgWidth, t.rej)) =
      some (8#8, .none) := by decide
theorem test_read_params : (nextOf (step (accessed (.read 0x18 4) idleActive))).map (·.rdata) = some (some 64#32) := by
  decide
theorem test_narrow_access_refused : refusalOf (step (accessed (.read 0x04 2) idleActive)) = some .badAccess := by decide
/-- Log 24: an access of no bytes, at the base, strictly inside the window and at its end. -/
theorem test_empty_access :
    [0, 4, 32].map (fun a => target build a 0) = [.elsewhere, .inadmissible, .elsewhere] := by decide
theorem test_write_in_reset :
    (nextOf (step (inReset (some (.write 0 4 2#32)) idleActive))).map (fun t => (t.rej, t.seq, t.life)) =
      some (.none, 0x00#5, .unconfigured) := by decide
/-- 3.8: reset with the RELEASE request presented and no response yet; its late response is ignored. -/
theorem test_reset_abandons_request :
    (nextOf (step (inReset none { acquiring .rel with callst := .wait }))).map (fun t => (t.seq, t.stale, t.trace)) =
      some (0x00#5, 1, []) := by decide
theorem test_late_response_ignored :
    nextOf (step (late 1 State.reset)) = some State.reset := by decide
/-- R273: a response that answers no request, in IDLE, in an ISSUE tick and in a wait. -/
theorem test_spurious_response_refused :
    ∀ p ∈ [Phase.idle, .smp, .ckLowWait, .capture], refusalOf (step (late 0 (acquiring p))) = some .spuriousResponse := by
  decide
/-- Log 23: in a reset tick too. -/
theorem test_spurious_response_refused_in_reset :
    refusalOf (step { State.reset with
      env := [{ rst := true, rsp := some { fault := true, level := true }, acc := none }] }) =
      some .spuriousResponse := by decide
theorem test_program_config :
    lineAccesses build (.config 8#32 17#32 22#32 27#32) = some [.write 0x08 4 8#32, .write 0x0C 4 0x001B1611#32] := by
  decide
/-- Log 20: CONFIG's shifts keep 32 bits. -/
theorem test_program_config_wide :
    lineAccesses build (.config 8#32 17#32 22#32 0x1001B#32) = lineAccesses build (.config 8#32 17#32 22#32 27#32) := by
  decide
/-- Log 20: the word of an index of 2^24 is that of index 0. -/
theorem test_program_acqBit_wide : lineWord .acqBit (2 ^ 24) = 0x00000003#32 := by decide
theorem test_program_acqBitExt :
    lineAccesses build (.acqBitExt 4) = some [.write 0 4 0x00000303#32] ∧ lineAccesses build (.acqBitExt 0) = none := by
  decide

/-! ### Witnesses: states that meet the hypotheses of the statements -/

theorem test_meets_DecodeInvertsEncode : (Instr.acqBit 63#7).wf = true ∧ decode (.cmd 0x00003F03#32) = .ok (.acqBit 63#7) :=
  ⟨by decide, by decide⟩

/-- Op 0, 8 and 15 for the first clause; 1 and 7 with a reserved bit for the second; 1 to 7 without one for the rest. -/
theorem test_meets_CommandWordDecoded :
    ([0x0#32, 0x8#32, 0xF#32].map fun v => v.toNat % 16) = [0, 8, 15] ∧
    ([0x11#32, 0x17#32].map fun v => (v.toNat % 16, v &&& 0xFFFFFFF0#32)) = [(1, 0x10#32), (7, 0x10#32)] ∧
    (0x4003#32).toNat % 16 = 3 ∧ 0x4003#32 &&& 0xFFFFC0F0#32 = 0x4000#32 ∧
    (0x3F03#32).toNat % 16 = 3 ∧ (0x3F03#32).toNat / 256 % 64 = 63 ∧ 0x3F03#32 &&& 0xFFFFC0F0#32 = 0#32 ∧
    ([1#32, 2#32, 4#32, 5#32, 6#32, 7#32].map fun v => (v.toNat % 16, v &&& 0xFFFFFFF0#32)) =
      [(1, 0#32), (2, 0#32), (4, 0#32), (5, 0#32), (6, 0#32), (7, 0#32)] := by decide

theorem test_meets_CommandWordsOfTheSpec : (63#7 : BitVec 7).toNat < 64 := by decide

theorem reachable_reset : Reachable (State.ofReset build [] none) := ⟨build, [], 0, by decide, rfl⟩

theorem test_meets_UnusedPhaseCodesRefused :
    Reachable (State.ofReset build [] none) ∧
    ∀ c ∈ [0x06#5, 0x07#5, 0x14#5, 0x1F#5],
      rstNow { State.reset with seq := c } = false ∧ (c = 0x06#5 ∨ c = 0x07#5 ∨ 0x14 ≤ c.toNat) :=
  ⟨reachable_reset, by decide⟩

/-- A tick that starts in the idle ACTIVE state, for each access the statements about the host port speak of. -/
theorem test_meets_StepRunsPhaseThenHostAccess :
    (spurious idleActive = false ∧ rstNow idleActive = false ∧ decode (.uop idleActive.seq) = .ok .idle ∧
      accNow idleActive = none) ∧
    (spurious (late 1 idleActive) = false ∧ staleAfter (late 1 idleActive) = 0) ∧
    (∀ off ∈ [0x00, 0x1C], off < 32 ∧ off % 4 = 0 ∧
      accNow (accessed (.read off 4) idleActive) = some (.read (idleActive.build.sicBase + off) 4)) ∧
    (accNow (accessed (.write 0 4 0#32) idleActive) = some (.write idleActive.build.sicBase 4 0#32) ∧
      accNow (accessed (.write 0 4 0x12#32) idleActive) = some (.write idleActive.build.sicBase 4 0x12#32) ∧
      accNow (accessed (.write 0 4 2#32) idleActive) = some (.write idleActive.build.sicBase 4 2#32)) ∧
    (decode (.cmd 0#32) = .error .illegalOp ∧ decode (.cmd 0x12#32) = .error .badEncoding ∧
      decode (.cmd 2#32) = .ok .acqAll) ∧
    (nextOf (exec .acqAll idleActive)).isSome = true :=
  ⟨by decide, by decide, by decide, by decide, ⟨by decide, by decide, by decide⟩, by decide⟩

theorem test_meets_StepRunsPhaseThenHostAccess_exec : exec .idle idleActive = .next idleActive := rfl

/-- Without a response in the tick no access makes it spurious: the hypothesis of the statements about the host port. -/
theorem test_meets_not_spurious (a : HostAccess) (s : State) : spurious (accessed a s) = false := rfl

/-- The clause on a refused command: INIT with a pin of another agent. -/
def sharing : State := { inPhase .idle with build := { build with sharedPins := [22#8] } }

theorem test_meets_StepRunsPhaseThenHostAccess_refused :
    refusalOf (exec .init sharing) = some .sharedPin ∧ decode (.cmd 1#32) = .ok .init := by decide

def twoReads : State :=
  { idleActive with env := [{ rst := false, rsp := none, acc := some (.read 0x1C 4) },
                            { rst := false, rsp := none, acc := some (.read 0x1C 4) }] }

theorem test_meets_HostReadHasNoSideEffect :
    accNow twoReads = some (.read 0x1C 4) ∧
    ((nextOf (step twoReads)).map fun t =>
      (accNow t, decide (t.build.sicBase ≤ 0x1C ∧ 0x1C < t.build.sicBase + 32), (nextOf (step t)).isSome)) =
      some (some (.read 0x1C 4), true, true) := by decide

theorem test_meets_ConfigWrites :
    (∀ off ∈ [0x08, 0x0C], accNow (accessed (.write off 4 9#32) State.reset) =
      some (.write (State.reset.build.sicBase + off) 4 9#32)) ∧
    (State.reset.life ≠ .active ∧ State.reset.seq = 0x00#5) ∧
    idleActive.life = .active ∧ (inPhase .iCfgClk).seq ≠ 0x00#5 ∧
    spurious State.reset = false ∧ rstNow State.reset = false ∧ decode (.uop State.reset.seq) = .ok .idle ∧
    decode (.uop (inPhase .iCfgClk).seq) = .ok .iCfgClk := by decide

theorem test_meets_OtherWritesIgnored :
    ∀ off ∈ [0x04, 0x10, 0x14, 0x18, 0x1C],
      accNow (accessed (.write off 4 9#32) idleActive) = some (.write (idleActive.build.sicBase + off) 4 9#32) := by
  decide

/-- Each alternative of an inadmissible access: narrow, below the base, misaligned. -/
theorem test_meets_InadmissibleAccessRefused :
    (31 < idleActive.build.sicBase + 32 ∧ idleActive.build.sicBase < 31 + 1 ∧ (1 : Nat) ≠ 4) ∧
    (6 < 8 + 32 ∧ 8 < 6 + 4 ∧ 6 < 8) ∧
    (29 < idleActive.build.sicBase + 32 ∧ 29 % 4 ≠ idleActive.build.sicBase % 4) ∧
    accNow (accessed (.read 31 1) idleActive) = some (.read 31 1) ∧
    accNow (accessed (.write 29 4 0#32) idleActive) = some (.write 29 4 0#32) := by decide

theorem test_meets_AccessOutsideWindowIgnored :
    idleActive.build.sicBase + 32 ≤ 32 ∧
    accNow (accessed (.read 32 4) idleActive) = some (.read 32 4) ∧
    accNow (accessed (.write 32 4 0#32) idleActive) = some (.write 32 4 0#32) ∧
    4 + 4 ≤ ({ idleActive with build := { build with sicBase := 8 } } : State).build.sicBase := by decide

theorem test_meets_ResetTick :
    rstNow (inReset none idleActive) = true ∧ spurious (inReset none idleActive) = false ∧
    accNow (inReset none idleActive) = none ∧
    (∀ off ∈ [0x00, 0x08, 0x18, 0x1C], accNow (inReset (some (.read off 4)) idleActive) =
      some (.read (idleActive.build.sicBase + off) 4)) ∧
    accNow (inReset (some (.write 0x1C 4 2#32)) idleActive) = some (.write (idleActive.build.sicBase + 0x1C) 4 2#32) ∧
    (nextOf (step (inReset (some (.read 0x08 4)) idleActive))).map (·.rdata) = some (some 8#32) := by decide

theorem test_meets_ResetValues : State.reset = State.ofReset Config.reference [] none := rfl

theorem test_meets_RequestOutputs :
    (rstNow (acquiring .smp) = false ∧ (acquiring .smp).callst = .issue ∧
      requestTable (acquiring .smp).seq.toNat (acquiring .smp) = some (4#3, 17#8, 0#2)) ∧
    (answered false false (acquiring .smp)).callst = .wait ∧
    requestTable (acquiring .capture).seq.toNat (acquiring .capture) = none := by decide

theorem test_meets_InitStarts :
    (inPhase .idle).seq = 0x00#5 ∧ (inPhase .idle).life ≠ .active ∧ ConfigOk (inPhase .idle) ∧
    PinsFree (inPhase .idle) := by decide

/-- The two ends of the legal widths, and beyond them. -/
theorem test_meets_InitConfigurationError :
    ConfigOk { inPhase .idle with cfgWidth := 1#8 } ∧ ConfigOk { inPhase .idle with cfgWidth := 64#8 } ∧
    ¬ ConfigOk { inPhase .idle with cfgWidth := 0#8 } ∧ ¬ ConfigOk { inPhase .idle with cfgWidth := 65#8 } ∧
    ¬ ConfigOk { inPhase .idle with cfgClk := 28#8 } ∧ ¬ ConfigOk { inPhase .idle with cfgClk := 22#8 } :=
  ⟨by decide, by decide, by decide, by decide, by decide, by decide⟩

theorem test_meets_InitSharedPinRefused :
    sharing.seq = 0x00#5 ∧ sharing.life ≠ .active ∧ ConfigOk sharing ∧ ¬ PinsFree sharing := by decide

theorem test_meets_AcquisitionStarts :
    idleActive.seq = 0x00#5 ∧ idleActive.life = .active ∧ (7#7 : BitVec 7).toNat < 64 ∧
    (7#7 : BitVec 7).toNat < idleActive.cfgWidth.toNat := by decide

theorem test_meets_ImmediateTeardown : idleActive.seq = 0x00#5 ∧ idleActive.life = .active := by decide

theorem test_meets_DeferredTeardown :
    (acquiring .cadenceWait).seq ≠ 0x00#5 ∧ (acquiring .cadenceWait).seq ≠ 0x13#5 ∧ acqOp (acquiring .cadenceWait) :=
  ⟨by decide, by decide, .inl rfl⟩

theorem test_meets_DescribeReportsConfiguration : State.reset.seq = 0x00#5 := by decide

/-- One row of the table for each outcome, and an accepted command. -/
theorem test_meets_CommandTable :
    rejectionOf .init (acquiring .smp) = some .busy ∧ rejectionOf .init idleActive = some .badState ∧
    rejectionOf (.acqBit 8#7) idleActive = some .badOperand ∧ rejectionOf (.acqBit 7#7) idleActive = none ∧
    rejectionOf .cancel (acquiring .smp) = none ∧ rejectionOf .cancel (acquiring .rel) = some .busy ∧
    rejectionOf .init (inPhase .idle) = none ∧ PinsFree (inPhase .idle) := by decide

theorem test_meets_IdleChangesNothing :
    (late 1 idleActive).seq = 0x00#5 ∧ spurious (late 1 idleActive) = false ∧ rstNow (late 1 idleActive) = false ∧
    accNow (late 1 idleActive) = none := by decide

theorem test_meets_CallPhasesIssueThenHold :
    Instr.rel ∈ callInstrs ∧ (inPhase .rel).callst = .issue ∧
    ({ inPhase .rel with callst := .wait } : State).callst = .wait ∧
    rspNow { inPhase .rel with callst := .wait } = none := by decide

theorem test_meets_InitPhasesAdvance :
    (answered false true (inPhase .iCfgSdata)).callst = .wait ∧
    rspNow (answered false true (inPhase .iCfgSdata)) = some { fault := false, level := true } := by decide

theorem test_meets_InitPhaseFault :
    (answered true true (inPhase .iIdleClk)).callst = .wait ∧
    rspNow (answered true true (inPhase .iIdleClk)) = some { fault := true, level := true } := by decide

theorem test_meets_PulseEdgesAdvance :
    (answered false false (acquiring .ckFall)).callst = .wait ∧
    rspNow (answered false false (acquiring .ckFall)) = some { fault := false, level := false } := by decide

theorem test_meets_AcquisitionFault :
    (answered true false (acquiring .smp)).callst = .wait ∧
    rspNow (answered true false (acquiring .smp)) = some { fault := true, level := false } := by decide

theorem test_meets_SampleWritesBit :
    (answered false true { acquiring .smp with bit := 63#7 }).callst = .wait ∧
    rspNow (answered false true { acquiring .smp with bit := 63#7 }) = some { fault := false, level := true } ∧
    (63#7 : BitVec 7).toNat < build.wmax.toNat ∧ build.wmax.toNat ≤ 64 := by decide

theorem test_meets_SettleWaits :
    2 ≤ ({ acquiring .ldLowWait with tmr := 2#32 } : State).tmr.toNat ∧
    ({ acquiring .ldLowWait with tmr := 1#32 } : State).tmr = 1#32 := by decide

theorem test_meets_ClockPulseEnds :
    (6#7 : BitVec 7).toNat + 1 < (acquiring .ckLowWait).cfgWidth.toNat ∧
    (acquiring .ckLowWait).cfgWidth.toNat ≤ (7#7 : BitVec 7).toNat + 1 ∧ (63#7 : BitVec 7).toNat < 64 ∧
    ({ acquiring .ckLowWait with tmr := 1#32, bit := 7#7 } : State).tmr = 1#32 := by decide

/-- The four cases of a boundary. -/
theorem test_meets_CaptureLatches :
    ({ acquiring .capture with cancelPending := true } : State).cancelPending = true ∧
    ({ acquiring .capture with releasePending := true } : State).cancelPending = false ∧
    ({ acquiring .capture with releasePending := true } : State).releasePending = true ∧
    ({ acquiring .capture with loopMode := true } : State).loopMode = true ∧
    (acquiring .capture).cancelPending = false ∧ (acquiring .capture).releasePending = false ∧
    (acquiring .capture).loopMode = false := by decide

theorem test_meets_CadenceWaits :
    ({ acquiring .cadenceWait with cancelPending := true } : State).cancelPending = true ∧
    ({ acquiring .cadenceWait with releasePending := true } : State).releasePending = true ∧
    (acquiring .cadenceWait).cancelPending = false ∧ (acquiring .cadenceWait).releasePending = false ∧
    2 ≤ (2#32 : BitVec 32).toNat ∧ ({ acquiring .cadenceWait with tmr := 1#32 } : State).tmr = 1#32 := by decide

theorem test_meets_TeardownCompletes :
    ∀ r ∈ [Tdr.released, .cancelled, .fault, .initFail], ∀ f ∈ [false, true],
      (answered f false { acquiring .rel with tdr := r }).callst = .wait ∧
      (answered f false { acquiring .rel with tdr := r }).tdr = r ∧
      rspNow (answered f false { acquiring .rel with tdr := r }) = some { fault := f, level := false } := by decide

/-! ### Witnesses of the invariants and of runs -/

theorem test_meets_MachineInvAtReset : build.wf = true := by decide

/-- A machine that satisfies every invariant and has a next state. -/
theorem test_meets_MachineInvKept :
    MachineInv (State.ofReset build [] none) ∧ (nextOf (step (State.ofReset build [] none))).isSome = true :=
  ⟨⟨by decide, by decide, by decide, .idle, rfl, rfl, rfl, rfl, rfl⟩, by decide⟩

theorem test_meets_LineInvKept : LineInv (State.ofReset build [] none) := by
  intro p hp
  cases hp
  intro h
  cases h

/-- The end of an acquisition of width 1 whose one READ returned high, at CAPTURE. -/
def captureState : State :=
  { acquiring .capture with
    cfgWidth := 1#8, bit := 1#7, acc := 1#64,
    trace := [ok .write 22#8 0#2, ok .write 22#8 1#2,
      { req := { op := .read, pin := 17#8, arg := 0#2 }, fault := false, level := true },
      ok .write 27#8 1#2, ok .write 27#8 0#2] }

theorem captureState_inv : MachineInv captureState :=
  ⟨by decide, by decide, by decide, .capture, rfl, ⟨rfl, .inl rfl, by decide⟩, by decide, by decide⟩

/-- The hypotheses of TraceInvKept and of CaptureResult. -/
theorem test_meets_TraceInvKept_CaptureResult :
    MachineInv captureState ∧ TraceInv captureState ∧ captureState.seq = 0x11#5 ∧
    (nextOf (exec .capture captureState)).isSome = true ∧ (nextOf (step captureState)).isSome = true := by
  refine ⟨captureState_inv, ?_, by decide, by decide, by decide⟩
  intro p hp _
  have h : p = .capture := Option.some.inj (hp.symm.trans (show phaseOfCode captureState.seq = some .capture from rfl))
  subst h
  exact ⟨[], captureState.trace, rfl, by decide⟩

/-- The clause for ACQ_BIT. -/
theorem test_meets_CaptureResult_acqBit :
    MachineInv { captureState with curOp := some .acqBit } ∧
    (nextOf (exec .capture { captureState with curOp := some .acqBit })).map (·.result) = some 1#64 :=
  ⟨⟨by decide, by decide, by decide, .capture, rfl, ⟨rfl, .inr (.inl rfl), by decide⟩, by decide, by decide⟩, by decide⟩

theorem test_meets_MarkInvKept : MarkInv (State.ofReset build [] none) := ⟨0, rfl⟩

/-- INIT from reset with every call answered a tick later, and one more command: the shortest run to an ACTIVE driver. -/
def initTicks (last : Word) : List TickIn :=
  [{ rst := false, rsp := none, acc := some (.write 0x0C 4 0x001B1611#32) },
   { rst := false, rsp := none, acc := some (.write 0x00 4 1#32) }] ++
  (List.replicate 5 (callTicks 1 false)).flatten ++
  [{ rst := false, rsp := none, acc := some (.write 0x00 4 last) }]

/-- The state after `n` ticks of that run. -/
def initRun (last : Word) (n : Nat) : State :=
  match Sys2Proof.core.run n (State.ofReset build (initTicks last) none) with
  | .next t => t
  | .fault _ => State.reset
  | .refused _ => State.reset

/-- Reachable states in IDLE with the driver ACTIVE, in an init phase and in an acquisition phase. -/
theorem test_meets_ReachableStatus :
    (Reachable (initRun 2#32 12) ∧ (initRun 2#32 12).seq = 0x00#5 ∧ (initRun 2#32 12).life = .active) ∧
    (Reachable (initRun 2#32 2) ∧ (initRun 2#32 2).seq = 0x01#5) ∧
    (Reachable (initRun 2#32 13) ∧ (initRun 2#32 13).seq = 0x08#5) :=
  ⟨⟨⟨build, initTicks 2#32, 12, by decide, by rfl⟩, by decide, by decide⟩,
   ⟨⟨build, initTicks 2#32, 2, by decide, by rfl⟩, by decide⟩,
   ⟨⟨build, initTicks 2#32, 13, by decide, by rfl⟩, by decide⟩⟩

/-- IdleLevels and the last clause of ReleaseExactlyOnce; its other clause holds of the reset state. -/
theorem test_meets_IdleLevels_ReleaseExactlyOnce :
    Reachable (initRun 7#32 12) ∧ (initRun 7#32 12).life = .active ∧ (initRun 7#32 12).seq = 0x00#5 ∧
    (State.ofReset build [] none).life ≠ .active :=
  ⟨⟨build, initTicks 7#32, 12, by decide, by rfl⟩, by decide, by decide, by decide⟩

theorem test_meets_ReleaseAtIdleLevels :
    Reachable (initRun 7#32 13) ∧ (initRun 7#32 13).seq = 0x13#5 ∧ (initRun 7#32 13).callst = .issue ∧
    (initRun 7#32 13).tdr = .released :=
  ⟨⟨build, initTicks 7#32, 13, by decide, by rfl⟩, by decide, by decide, by decide⟩

/-- LIFE changes, from a state of a run and so with its invariant: at I_IDLE_CLK's response. -/
theorem test_meets_LifeChangesOnly :
    MachineInv (answered false false { inPhase .iIdleClk with curOp := some .init }) ∧
    (nextOf (step (answered false false { inPhase .iIdleClk with curOp := some .init }))).map (·.life) = some .active :=
  ⟨⟨by decide, by decide, by decide, .iIdleClk, rfl, rfl, by decide, by decide, rfl, rfl⟩, by decide⟩

theorem test_meets_ConfigurationImmutable :
    (nextOf (step (accessed (.write 0x08 4 3#32) idleActive))).map (fun t => (t.life, t.cfgWidth)) =
      some (.active, 8#8) ∧
    (nextOf (step (accessed (.write 0x08 4 3#32) (inPhase .iCfgClk)))).map (fun t => (t.seq, t.cfgWidth)) =
      some (0x03#5, 8#8) := by decide

theorem test_meets_ResultChangesOnly :
    (nextOf (step captureState)).map (fun t => decide (t.result ≠ captureState.result)) = some true := by decide

theorem test_meets_CountCountsCaptures : (nextOf (step captureState)).map (·.count) = some 1#8 := by decide

theorem test_meets_ErrorRecordsKept :
    (nextOf (step (answered true false (acquiring .smp)))).map (fun t => (t.err, t.faultOp)) =
      some (.hardwareFault, some .read) ∧ (acquiring .smp).err = .none := by decide

theorem test_meets_PhaseGraph :
    rstNow (accessed (.write 0 4 2#32) idleActive) = false ∧
    (nextOf (step (accessed (.write 0 4 2#32) idleActive))).map (·.seq) = some 0x08#5 := by decide

theorem test_meets_PulseNotCutByHost :
    (∀ p ∈ [Phase.ldFall, .ldHighWait, .ckRise, .ckLowWait],
      (0x08 ≤ (acquiring p).seq.toNat ∧ (acquiring p).seq.toNat ≤ 0x0B) ∨
      (0x0D ≤ (acquiring p).seq.toNat ∧ (acquiring p).seq.toNat ≤ 0x10)) ∧
    rstNow (accessed (.write 0 4 5#32) (acquiring .ldFall)) = false ∧
    (nextOf (step (accessed (.write 0 4 5#32) (acquiring .ldFall)))).map (fun t => (t.cancelPending, t.callst)) =
      some (true, .wait) ∧
    (nextOf (step { acquiring .ldFall with env := [quietTick] })).isSome = true := by decide

theorem test_meets_OneOutstandingRequest :
    (pinPort (acquiring .smp)).valid = true ∧ (nextOf (step (acquiring .smp))).isSome = true ∧
    awaiting (answered false true (acquiring .smp)) = true ∧
    rspNow (answered false true (acquiring .smp)) = some { fault := false, level := true } ∧
    awaiting { acquiring .smp with callst := .wait } = true ∧ rspNow { acquiring .smp with callst := .wait } = none ∧
    requestTable (acquiring .capture).seq.toNat (acquiring .capture) = none := by decide

theorem test_meets_ResponseOutsideWaitIgnored :
    awaiting (late 1 idleActive) = false ∧ (rspNow (late 1 idleActive)).isSome = true ∧ 0 < (late 1 idleActive).stale := by
  decide

/-- Both clauses: a response that answers no request; a request, its response and a reset that abandons it. -/
theorem test_meets_ResponsesAnswerRequests :
    ((rspNow (late 0 idleActive)).isSome = true ∧ awaiting (late 0 idleActive) = false ∧ (late 0 idleActive).stale = 0) ∧
    (nextOf (step (acquiring .smp))).map awaiting = some true ∧
    (nextOf (step (answered false true (acquiring .smp)))).map awaiting = some false ∧
    (nextOf (step (inReset none { acquiring .smp with callst := .wait }))).map (·.stale) = some 1 := by decide

theorem test_meets_AcqBitFollowsAcqAll :
    (acquiring .smp).curOp = some .acqAll ∧ phaseOfCode (acquiring .smp).seq = some .smp ∧ acqPhase .smp = true ∧
    rstNow (acquiring .smp) = false ∧ (nextOf (step (acquiring .smp))).isSome = true ∧
    (nextOf (exec .capture captureState)).isSome = true ∧ captureState.curOp = some .acqAll := by decide

/-- Each of the four waits, at N = 1 and with a wait of 2 ticks. -/
theorem test_meets_SettleWaitLasts :
    (∀ p ∈ [(Phase.ldLowWait, 0x0A), (.ldHighWait, 0x0C), (.ckHighWait, 0x0F), (.ckLowWait, 0x0C)],
      ((acquiring p.1).seq.toNat, p.2) ∈ [(0x09, 0x0A), (0x0B, 0x0C), (0x0E, 0x0F),
        (0x10, if (acquiring p.1).bit.toNat + 1 < (acquiring p.1).cfgWidth.toNat then 0x0C else 0x11)]) ∧
    ({ acquiring .ckLowWait with tmr := 1#32 } : State).tmr.toNat = 1 ∧
    ({ acquiring .ckLowWait with tmr := 2#32, env := quietTicks 2 } : State).tmr.toNat = 2 ∧
    (∀ x ∈ (quietTicks 2).take 2, x.rst = false ∧ x.acc = none) ∧
    ((quietTicks 2).take 2).countP (fun x => x.rsp.isSome) ≤ (acquiring .ckLowWait).stale ∧
    ((late 1 (acquiring .ckLowWait)).env.take 2).countP (fun x => x.rsp.isSome) ≤
      (late 1 (acquiring .ckLowWait)).stale := by decide

theorem test_meets_QuiescentStays :
    quiescent (late 1 idleActive) = true ∧
    ((late 1 idleActive).env.take 3).countP (fun x => x.rsp.isSome) ≤ (late 1 idleActive).stale := by decide

theorem test_meets_InitCompletes :
    (inPhase .idle).seq = 0x00#5 ∧ (inPhase .idle).life ≠ .active ∧ ConfigOk (inPhase .idle) ∧
    PinsFree (inPhase .idle) ∧
    ({ inPhase .idle with
      env := { rst := false, rsp := none, acc := some (.write build.sicBase 4 0x00000001#32) } ::
        ((List.replicate 5 (callTicks 1 false)).flatten ++ []) } : State).env.length = 11 := by decide

theorem test_meets_AcquisitionCompletes :
    build.wf = true ∧ 1 ≤ (acquiring .ldFall).cfgWidth.toNat ∧
    (acquiring .ldFall).cfgWidth.toNat ≤ (acquiring .ldFall).build.wmax.toNat ∧
    (acquiring .ldFall).seq = 0x08#5 ∧ (acquiring .ldFall).callst = .issue ∧
    (acquiring .ldFall).curOp = some .acqAll ∧ (acquiring .ldFall).acc = 0#64 ∧ (acquiring .ldFall).bit = 0#7 ∧
    (acquiring .ldFall).loopMode = false ∧ (acquiring .ldFall).cancelPending = false ∧
    (acquiring .ldFall).releasePending = false ∧ (acqTicks 8 3 1 (fun _ => true)).length = 107 := by decide

end Sys2Proof.Tests
end

/-! What one tick can do, as relations with one constructor per branch: `PhaseStep` for the sequencer's half,
`CommandStep` for a CMD write, `HostStep` for the host's half, and `step_inversion` for the whole tick. -/

namespace Sys2Proof.Machine

open Sys2Proof.Safety

/-! ### The sequencer's half -/

/-- The phase that follows a call phase whose call succeeded and has no effect of its own
(41_init.md R152 to R155, 42_pulses.md R171, R173, R176, R178). -/
def callNext : Phase → Option Phase
  | .iCfgSdata => some .iCfgLoad
  | .iCfgLoad => some .iCfgClk
  | .iCfgClk => some .iIdleLoad
  | .iIdleLoad => some .iIdleClk
  | .ldFall => some .ldLowWait
  | .ldRise => some .ldHighWait
  | .ckRise => some .ckHighWait
  | .ckFall => some .ckLowWait
  | .idle | .iIdleClk | .ldLowWait | .ldHighWait | .smp | .ckHighWait | .ckLowWait | .capture | .cadenceWait
  | .rel => none

/-- The phase that follows a settle wait without an effect of its own (42_pulses.md R172, R174, R177). -/
def waitNext : Phase → Option Phase
  | .ldLowWait => some .ldRise
  | .ldHighWait => some .smp
  | .ckHighWait => some .ckFall
  | .idle | .iCfgSdata | .iCfgLoad | .iCfgClk | .iIdleLoad | .iIdleClk | .ldFall | .ldRise | .smp | .ckRise
  | .ckFall | .ckLowWait | .capture | .cadenceWait | .rel => none

/-- The waiting call of phase `p` is answered: its request and the response. -/
structure Answered (s : State) (p : Phase) (req : PinReq) (fault : Bool) (level : Level) : Prop where
  request : phaseRequest p s = some req
  waits : s.callst = .wait
  response : rspNow s = some ⟨fault, level⟩

/-- The reason of the teardown that a boundary begins: CANCEL before RELEASE (43_acquire.md R195). -/
def PendingReason (s : State) (r : Tdr) : Prop :=
  s.cancelPending = true ∧ r = .cancelled ∨ s.cancelPending = false ∧ s.releasePending = true ∧ r = .released

/-- No teardown is pending. -/
def NonePending (s : State) : Prop := s.cancelPending = false ∧ s.releasePending = false

/-- The effect of CAPTURE before its boundary (43_acquire.md R194). -/
def latched (s : State) : State := { s with result := captured s, count := s.count + 1#8 }

/-- Everything a phase can do in its tick (40_sequencer.md R126 to R131). -/
inductive PhaseStep (s : State) : Phase → State → Prop
  | idle : PhaseStep s .idle s
  | issue {p : Phase} {req : PinReq} (hreq : phaseRequest p s = some req) (hc : s.callst = .issue) :
      PhaseStep s p { s with callst := .wait }
  | hold {p : Phase} {req : PinReq} (hreq : phaseRequest p s = some req) (hc : s.callst = .wait)
      (hr : rspNow s = none) : PhaseStep s p s
  | initFault {p : Phase} {req : PinReq} {l : Level} (hp : initPhase p = true) (ha : Answered s p req true l) :
      PhaseStep s p (fatal .initialization req.op (logCall req true l s))
  | acqFault {p : Phase} {req : PinReq} {l : Level} (hp : acqPhase p = true) (ha : Answered s p req true l) :
      PhaseStep s p (fatal .hardwareFault req.op (logCall req true l s))
  | advance {p q : Phase} {req : PinReq} {l : Level} (hq : callNext p = some q) (ha : Answered s p req false l) :
      PhaseStep s p (goto q (logCall req false l s))
  | configured {l : Level} (ha : Answered s .iIdleClk (reqWrite s.cfgClk false) false l) :
      PhaseStep s .iIdleClk (endSeq { logCall (reqWrite s.cfgClk false) false l s with life := .active })
  | sampled {l : Level} (ha : Answered s .smp (reqRead s) false l) :
      PhaseStep s .smp (goto .ckRise (accWrite s.bit.toNat l (logCall (reqRead s) false l s)))
  | released {f : Bool} {l : Level} (ha : Answered s .rel reqRelease f l) :
      PhaseStep s .rel (relDone { logCall reqRelease f l s with relFault := s.relFault || f })
  | count {p : Phase} (hp : settlePhase p = true) (ht : s.tmr ≠ 1#32) :
      PhaseStep s p { s with tmr := s.tmr - 1#32 }
  | expire {p q : Phase} (hq : waitNext p = some q) (ht : s.tmr = 1#32) : PhaseStep s p (goto q { s with tmr := 0#32 })
  | shifted (ht : s.tmr = 1#32) : PhaseStep s .ckLowWait (nextBit { s with tmr := 0#32 })
  | captureTorn {r : Tdr} (hr : PendingReason s r) : PhaseStep s .capture (goto .rel { latched s with tdr := r })
  | captureLoop (hn : NonePending s) (hl : s.loopMode = true) : PhaseStep s .capture (goto .cadenceWait (latched s))
  | captureEnd (hn : NonePending s) (hl : s.loopMode = false) : PhaseStep s .capture (endSeq (latched s))
  | cadenceTorn {r : Tdr} (hr : PendingReason s r) : PhaseStep s .cadenceWait (goto .rel { s with tdr := r })
  | cadenceCount (hn : NonePending s) (ht : s.tmr ≠ 1#32) :
      PhaseStep s .cadenceWait { s with tmr := s.tmr - 1#32 }
  | cadenceExpire (hn : NonePending s) (ht : s.tmr = 1#32) :
      PhaseStep s .cadenceWait (startAcq { s with tmr := 0#32 })

theorem callStep_phaseStep {s : State} {p : Phase} {req : PinReq} {f : Level → State → State} {g : State → State}
    (hreq : phaseRequest p s = some req)
    (ok : ∀ l, Answered s p req false l → PhaseStep s p (f l (logCall req false l s)))
    (fault : ∀ l, Answered s p req true l → PhaseStep s p (g (logCall req true l s))) :
    PhaseStep s p (callStep req f g s) := by
  rcases callStep_cases req f g s with ⟨hc, h⟩ | ⟨hc, hr, h⟩ | ⟨l, hc, hr, h⟩ | ⟨l, hc, hr, h⟩ <;> rw [h]
  · exact .issue hreq hc
  · exact .hold hreq hc hr
  · exact ok l ⟨hreq, hc, hr⟩
  · exact fault l ⟨hreq, hc, hr⟩

theorem initCall_phaseStep {s : State} {p : Phase} {req : PinReq} {f : State → State} (hp : initPhase p = true)
    (hreq : phaseRequest p s = some req)
    (ok : ∀ l, Answered s p req false l → PhaseStep s p (f (logCall req false l s))) :
    PhaseStep s p (initCall req f s) :=
  callStep_phaseStep hreq ok fun _ ha => .initFault hp ha

theorem acqCall_phaseStep {s : State} {p : Phase} {req : PinReq} {f : Level → State → State} (hp : acqPhase p = true)
    (hreq : phaseRequest p s = some req)
    (ok : ∀ l, Answered s p req false l → PhaseStep s p (f l (logCall req false l s))) :
    PhaseStep s p (acqCall req f s) :=
  callStep_phaseStep hreq ok fun _ ha => .acqFault hp ha

theorem waitStep_phaseStep {s : State} {p : Phase} {f : State → State} (hp : settlePhase p = true)
    (expire : s.tmr = 1#32 → PhaseStep s p (f { s with tmr := 0#32 })) : PhaseStep s p (waitStep f s) := by
  rcases waitStep_cases f s with ⟨ht, h⟩ | ⟨ht, h⟩ <;> rw [h]
  · exact expire ht
  · exact .count hp ht

theorem boundary_phaseStep (s : State) : PhaseStep s .capture (boundary (latched s)) := by
  unfold boundary
  rcases takePending_cases _ (latched s) with ⟨hc, h⟩ | ⟨hc, hr, h⟩ | ⟨hc, hr, h⟩ <;> rw [h]
  · exact .captureTorn (.inl ⟨hc, rfl⟩)
  · exact .captureTorn (.inr ⟨hc, hr, rfl⟩)
  · split
    · next hl => exact .captureLoop ⟨hc, hr⟩ hl
    · next hl => exact .captureEnd ⟨hc, hr⟩ (Bool.eq_false_iff.mpr hl)

theorem cadence_phaseStep (s : State) : PhaseStep s .cadenceWait (takePending (waitStep startAcq) s) := by
  rcases takePending_cases (waitStep startAcq) s with ⟨hc, h⟩ | ⟨hc, hr, h⟩ | ⟨hc, hr, h⟩ <;> rw [h]
  · exact .cadenceTorn (.inl ⟨hc, rfl⟩)
  · exact .cadenceTorn (.inr ⟨hc, hr, rfl⟩)
  · rcases waitStep_cases startAcq s with ⟨ht, h'⟩ | ⟨ht, h'⟩ <;> rw [h']
    · exact .cadenceExpire ⟨hc, hr⟩ ht
    · exact .cadenceCount ⟨hc, hr⟩ ht

theorem rel_phaseStep (s : State) :
    PhaseStep s .rel (callStep reqRelease (fun _ => relDone) (fun s => relDone { s with relFault := true }) s) := by
  refine callStep_phaseStep rfl (fun l ha => ?_) (fun l ha => ?_)
  · have h := PhaseStep.released ha
    rw [Bool.or_false] at h
    exact h
  · have h := PhaseStep.released ha
    rw [Bool.or_true] at h
    exact h

/-- A phase does one of the things that `PhaseStep` lists. -/
theorem phaseStep_of_exec {p : Phase} {s t : State} (h : exec (phaseInstr p) s = .next t) : PhaseStep s p t := by
  cases p <;> cases h
  case idle => exact .idle
  case iCfgSdata => exact initCall_phaseStep rfl rfl fun _ => .advance rfl
  case iCfgLoad => exact initCall_phaseStep rfl rfl fun _ => .advance rfl
  case iCfgClk => exact initCall_phaseStep rfl rfl fun _ => .advance rfl
  case iIdleLoad => exact initCall_phaseStep rfl rfl fun _ => .advance rfl
  case iIdleClk => exact initCall_phaseStep rfl rfl fun _ => .configured
  case ldFall => exact acqCall_phaseStep rfl rfl fun _ => .advance rfl
  case ldLowWait => exact waitStep_phaseStep rfl (.expire rfl)
  case ldRise => exact acqCall_phaseStep rfl rfl fun _ => .advance rfl
  case ldHighWait => exact waitStep_phaseStep rfl (.expire rfl)
  case smp => exact acqCall_phaseStep rfl rfl fun _ => .sampled
  case ckRise => exact acqCall_phaseStep rfl rfl fun _ => .advance rfl
  case ckHighWait => exact waitStep_phaseStep rfl (.expire rfl)
  case ckFall => exact acqCall_phaseStep rfl rfl fun _ => .advance rfl
  case ckLowWait => exact waitStep_phaseStep rfl .shifted
  case capture => exact boundary_phaseStep s
  case cadenceWait => exact cadence_phaseStep s
  case rel => exact rel_phaseStep s

/-! ### A CMD write -/

/-- Everything a command can do (40_sequencer.md R122 to R125 and each command's rule). -/
inductive CommandStep (s : State) : Instr → State → Prop
  | rejected {i : Instr} {c : RejCode} (hc : rejectionOf i s = some c) : CommandStep s i (reject c s)
  | initStarts (hs : s.seq = 0x00#5) (hl : s.life ≠ .active) (hv : cfgValid s = true) (hp : sharesPin s = false) :
      CommandStep s .init (goto .iCfgSdata { clearRecords (accepted s) with curOp := some .init })
  | initInvalid (hs : s.seq = 0x00#5) (hl : s.life ≠ .active) (hv : cfgValid s = false) :
      CommandStep s .init { clearRecords (accepted s) with err := .configuration, done := true }
  | acqAll (hs : s.seq = 0x00#5) (hl : s.life = .active) : CommandStep s .acqAll (beginAcq .acqAll (accepted s))
  | acqBit {idx : BitVec 7} (hs : s.seq = 0x00#5) (hl : s.life = .active) (hi : idx.toNat < s.cfgWidth.toNat) :
      CommandStep s (.acqBit idx) (beginAcq .acqBit { accepted s with curIdx := idx.setWidth 6 })
  | acqLoop (hs : s.seq = 0x00#5) (hl : s.life = .active) :
      CommandStep s .acqLoop (beginAcq .acqLoop { accepted s with loopMode := true })
  | cancelDeferred (ha : inAcq s = true) : CommandStep s .cancel (deferCancel (accepted s))
  | cancelNow (hs : s.seq = 0x00#5) (hl : s.life = .active) :
      CommandStep s .cancel (teardownNow .cancel .cancelled (accepted s))
  | releaseDeferred (ha : inAcq s = true) : CommandStep s .release (deferRelease (accepted s))
  | releaseNow (hs : s.seq = 0x00#5) (hl : s.life = .active) :
      CommandStep s .release (teardownNow .release .released (accepted s))
  | describe (hs : s.seq = 0x00#5) :
      CommandStep s .describe { accepted s with result := describeWord s, done := true }

/-- `inAcq` as the table of 40_sequencer.md R124 has it. -/
theorem inAcq_eq_true_iff (s : State) : inAcq s = true ↔ acqOp s ∧ s.seq ≠ 0x13#5 := by
  unfold inAcq
  rw [Bool.and_eq_true, Bool.or_eq_true, Bool.or_eq_true, decide_eq_true_iff, decide_eq_true_iff, decide_eq_true_iff,
    decide_eq_true_iff, or_assoc]
  rfl

/-- The acceptance of INIT, DESCRIBE or an acquisition, given its rejections and its effect. -/
theorem acceptIdle_commandStep {legal : Bool} {f : State → Result} {i : Instr} {s t : State}
    (h : acceptIdle legal f s = .next t) (hbusy : s.seq ≠ 0x00#5 → rejectionOf i s = some .busy)
    (hbad : s.seq = 0x00#5 → legal = false → rejectionOf i s = some .badState)
    (hf : s.seq = 0x00#5 → legal = true → f (accepted s) = .next t → CommandStep s i t) : CommandStep s i t := by
  rcases acceptIdle_cases legal f s with ⟨hb, e⟩ | ⟨hb, hl, e⟩ | ⟨hb, hl, e⟩ <;> rw [e] at h
  · cases h
    exact .rejected (hbusy ((busy_eq_true_iff s).mp hb))
  · exact hf ((busy_eq_false_iff s).mp hb) hl h
  · cases h
    exact .rejected (hbad ((busy_eq_false_iff s).mp hb) hl)

/-- The acceptance of CANCEL or RELEASE, given its two effects. -/
theorem acceptTeardown_commandStep {d n : State → State} {i : Instr} {s t : State} (hi : i = .cancel ∨ i = .release)
    (h : acceptTeardown d n s = .next t) (hd : inAcq s = true → CommandStep s i (d (accepted s)))
    (hn : s.seq = 0x00#5 → s.life = .active → CommandStep s i (n (accepted s))) : CommandStep s i t := by
  rcases acceptTeardown_cases d n s with ⟨_, ha, e⟩ | ⟨hb, ha, e⟩ | ⟨hb, hl, e⟩ | ⟨hb, hl, e⟩ <;> rw [e] at h <;>
    cases h
  · exact hd ha
  · have hs := (busy_eq_true_iff s).mp hb
    have hno : ¬ ((s.curOp = some .acqAll ∨ s.curOp = some .acqBit ∨ s.curOp = some .acqLoop) ∧ s.seq ≠ 0x13#5) :=
      fun hq => absurd ((inAcq_eq_true_iff s).mpr hq) (Bool.eq_false_iff.mp ha)
    refine .rejected ?_
    rcases hi with rfl | rfl <;> simp only [rejectionOf, if_pos hs, if_neg hno]
  · exact hn ((busy_eq_false_iff s).mp hb) hl
  · have hs := (busy_eq_false_iff s).mp hb
    refine .rejected ?_
    rcases hi with rfl | rfl <;> simp [rejectionOf, hs, hl]

/-- What an accepted INIT leaves, unless it is refused (41_init.md R150, log 9). -/
theorem performInit_next {s t : State} (h : performInit s = .next t) :
    (cfgValid s = true ∧ sharesPin s = false ∧ t = goto .iCfgSdata { clearRecords s with curOp := some .init }) ∨
    (cfgValid s = false ∧ t = { clearRecords s with err := .configuration, done := true }) := by
  unfold performInit at h
  dsimp only at h
  split at h
  · next hv =>
    split at h
    · cases h
    · next hp =>
      cases h
      exact .inl ⟨hv, Bool.eq_false_iff.mpr hp, rfl⟩
  · next hv =>
    cases h
    exact .inr ⟨Bool.eq_false_iff.mpr hv, rfl⟩

theorem init_commandStep {s t : State} (h : execInit s = .next t) : CommandStep s .init t := by
  refine acceptIdle_commandStep h (fun hs => by simp [rejectionOf, hs]) (fun hs hl => ?_) fun hs hl hf => ?_
  · simp [rejectionOf, hs, not_not.mp (of_decide_eq_false hl)]
  · rcases performInit_next hf with ⟨hv, hn, rfl⟩ | ⟨hv, rfl⟩
    · exact .initStarts hs (of_decide_eq_true hl) hv hn
    · exact .initInvalid hs (of_decide_eq_true hl) hv

theorem acqAll_commandStep {s t : State} (h : execAcqAll s = .next t) : CommandStep s .acqAll t := by
  refine acceptIdle_commandStep h (fun hs => by simp [rejectionOf, hs])
    (fun hs hl => by simp [rejectionOf, hs, of_decide_eq_false hl]) fun hs hl hf => ?_
  cases hf
  exact .acqAll hs (of_decide_eq_true hl)

theorem acqLoop_commandStep {s t : State} (h : execAcqLoop s = .next t) : CommandStep s .acqLoop t := by
  refine acceptIdle_commandStep h (fun hs => by simp [rejectionOf, hs])
    (fun hs hl => by simp [rejectionOf, hs, of_decide_eq_false hl]) fun hs hl hf => ?_
  cases hf
  exact .acqLoop hs (of_decide_eq_true hl)

theorem acqBit_commandStep {idx : BitVec 7} {s t : State} (h : execAcqBit idx s = .next t) :
    CommandStep s (.acqBit idx) t := by
  unfold execAcqBit at h
  split at h
  · next hb =>
    cases h
    exact .rejected (by simp [rejectionOf, (busy_eq_true_iff s).mp hb])
  · next hb =>
    have hs : s.seq = 0x00#5 := (busy_eq_false_iff s).mp (Bool.eq_false_iff.mpr hb)
    split at h
    · next hl =>
      split at h
      · next hi =>
        cases h
        exact .acqBit hs hl hi
      · next hi =>
        cases h
        exact .rejected (by simp [rejectionOf, hs, hl, Nat.not_lt.mp hi])
    · next hl =>
      cases h
      exact .rejected (by simp [rejectionOf, hs, hl])

theorem describe_commandStep {s t : State} (h : execDescribe s = .next t) : CommandStep s .describe t := by
  refine acceptIdle_commandStep h (fun hs => by simp [rejectionOf, hs]) (fun _ hl => nomatch hl) fun hs _ hf => ?_
  cases hf
  exact .describe hs

/-- A decoded command does one of the things that `CommandStep` lists. -/
theorem commandStep_of_exec {v : Word} {i : Instr} {s t : State} (hi : decodeCommand v = .ok i)
    (h : exec i s = .next t) : CommandStep s i t := by
  rcases decodeCommand_command hi with rfl | rfl | ⟨_, rfl⟩ | rfl | rfl | rfl | rfl
  · exact init_commandStep h
  · exact acqAll_commandStep h
  · exact acqBit_commandStep h
  · exact acqLoop_commandStep h
  · exact acceptTeardown_commandStep (.inl rfl) h .cancelDeferred .cancelNow
  · exact describe_commandStep h
  · exact acceptTeardown_commandStep (.inr rfl) h .releaseDeferred .releaseNow

/-! ### The host's half and the whole tick -/

/-- Everything the host's half of a tick can do to the block, before the end of the tick
(40_sequencer.md R120, R122; 10_state.md R22, R26). -/
inductive HostStep (s : State) : State → Prop
  | none : HostStep s s
  | command {i : Instr} {t : State} (hw : writesCommand i s) (hc : CommandStep s i t) : HostStep s t
  | rejected {e : DecodeError} : HostStep s (reject (decodeRej e) s)
  | width {v : Word} (hw : cfgWritable s = true) : HostStep s { s with cfgWidth := v.extractLsb' 0 8 }
  | pins {v : Word} (hw : cfgWritable s = true) :
      HostStep s { s with
        cfgSdata := v.extractLsb' 0 8, cfgLoad := v.extractLsb' 8 8, cfgClk := v.extractLsb' 16 8 }

/-- A write to a register other than CMD writes configuration or nothing (10_state.md R26, R29). -/
theorem writeReg_hostStep (r : HostReg) (v : Word) (s : State) : HostStep s (writeReg r v s) := by
  cases r
  case cfgWidth =>
    simp only [writeReg]
    split
    · next hw => exact .width hw
    · exact .none
  case cfgPins =>
    simp only [writeReg]
    split
    · next hw => exact .pins hw
    · exact .none
  all_goals exact .none

theorem regAt_cmd {off : Nat} (h : regAt off = .cmd) : off / 4 % 8 = 0 := by
  unfold regAt at h
  split at h
  · assumption
  all_goals cases h

/-- The address of CMD is the base of the window (20_memory.md R61). -/
theorem target_cmd {c : Config} {addr size : Nat} (h : target c addr size = .reg .cmd) :
    addr = c.sicBase ∧ size = 4 := by
  unfold target at h
  split at h
  · cases h
  · next hin =>
    split at h
    · next hal =>
      obtain ⟨hsize, hbase, h4⟩ := hal
      have hoff := regAt_cmd (Target.reg.inj h)
      omega
    · cases h

/-- The host's half of a tick does one of the things that `HostStep` lists, and the tick ends. -/
theorem hostStep_of_busAccess {s u : State} (h : busAccess busWrite s = .next u) :
    ∃ t rd, HostStep s t ∧ u = endTick rd t := by
  rcases busAccess_cases h with ⟨rd, rfl⟩ | ⟨addr, size, v, r, t, hacc, htgt, hw, rfl⟩
  · exact ⟨s, rd, .none, rfl⟩
  · refine ⟨t, none, ?_, rfl⟩
    rcases busWrite_cases hw with ⟨i, rfl, hi, hx⟩ | ⟨e, _, _, rfl⟩ | ⟨_, rfl⟩
    · obtain ⟨rfl, rfl⟩ := target_cmd htgt
      exact .command ⟨v, hacc, hi⟩ (commandStep_of_exec hi hx)
    · exact .rejected
    · exact writeReg_hostStep r v s

/-- Everything a tick can do: reset, or the phase that SEQ selects and then the host access; at the end the inputs are
consumed and the abandoned requests counted (40_sequencer.md R120, 70_reset_and_hazards.md R290). -/
theorem step_inversion {s t : State} (h : step s = .next t) :
    (rstNow s = true ∧ ∃ rd, t = setStale (staleAfter s) (State.ofReset s.build s.env.tail rd)) ∨
    (rstNow s = false ∧ ∃ p s1 s2 rd, phaseOfCode s.seq = some p ∧ SamePorts s s1 ∧ PhaseStep s p s1 ∧
      HostStep s1 s2 ∧ t = setStale (staleAfter s) (endTick rd s2)) := by
  obtain ⟨_, u, rfl, hu⟩ := step_cases h
  rcases hu with ⟨hr, rd, rfl⟩ | ⟨hr, p, s1, hp, h1, h2⟩
  · exact .inl ⟨hr, rd, rfl⟩
  · obtain ⟨s2, rd, h3, rfl⟩ := hostStep_of_busAccess h2
    exact .inr ⟨hr, p, s1, s2, rd, hp, exec_samePorts h1, phaseStep_of_exec h1, h3, rfl⟩

/-- A CMD write after the phase is the tick's CMD write. -/
theorem writesCommand_congr {s t : State} {i : Instr} (h : SamePorts s t) (hw : writesCommand i t) :
    writesCommand i s := by
  obtain ⟨v, hacc, hi⟩ := hw
  refine ⟨v, ?_, hi⟩
  rw [← accNow_congr h, hacc, h.1]

end Sys2Proof.Machine

/-! What the phases and the commands leave unchanged, field by field. -/

namespace Sys2Proof.Machine

open Sys2Proof.Safety

/-! ### The end of a teardown -/

/-- The end of a teardown changes LIFE, EXIT and the flags of the sequence, and nothing else (44_teardown.md R234). -/
theorem relDone_eq (s : State) :
    relDone s = { s with
      life := (relDone s).life, exit := (relDone s).exit, cancelPending := false, releasePending := false,
      seq := 0x00#5, callst := .issue, curOp := none, loopMode := false, done := true } := by
  rcases relDone_cases s with ⟨_, _, h⟩ | ⟨_, h⟩ <;> rw [h]

@[simp] theorem relDone_result (s : State) : (relDone s).result = s.result := by rw [relDone_eq]
@[simp] theorem relDone_count (s : State) : (relDone s).count = s.count := by rw [relDone_eq]
@[simp] theorem relDone_err (s : State) : (relDone s).err = s.err := by rw [relDone_eq]
@[simp] theorem relDone_faultOp (s : State) : (relDone s).faultOp = s.faultOp := by rw [relDone_eq]
@[simp] theorem relDone_seq (s : State) : (relDone s).seq = 0x00#5 := by rw [relDone_eq]
@[simp] theorem relDone_curOp (s : State) : (relDone s).curOp = none := by rw [relDone_eq]
@[simp] theorem relDone_loopMode (s : State) : (relDone s).loopMode = false := by rw [relDone_eq]
@[simp] theorem relDone_cancelPending (s : State) : (relDone s).cancelPending = false := by rw [relDone_eq]
@[simp] theorem relDone_releasePending (s : State) : (relDone s).releasePending = false := by rw [relDone_eq]

/-- LIFE after a teardown (44_teardown.md R234). -/
theorem relDone_life (s : State) :
    (relDone s).life = s.life ∨
    ((s.tdr = .released ∨ s.tdr = .cancelled ∨ s.tdr = .fault) ∧ (relDone s).life = .tornDown) := by
  rcases relDone_cases s with ⟨e, hr, h⟩ | ⟨_, h⟩ <;> rw [h]
  · refine .inr ⟨?_, rfl⟩
    rcases hr with ⟨hr, _⟩ | ⟨hr, _⟩ | ⟨hr, _⟩
    · exact .inl hr
    · exact .inr (.inl hr)
    · exact .inr (.inr hr)
  · exact .inl rfl

/-- After a teardown no lifetime is ACTIVE. -/
theorem relDone_not_active {s : State} (h : TeardownInv s) : (relDone s).life ≠ .active := by
  rcases relDone_cases s with ⟨_, _, e⟩ | ⟨hr, e⟩ <;> rw [e]
  · simp
  · rcases h with ⟨hk, _⟩ | ⟨_, hl⟩
    · rcases hr with hr | hr <;> simp [hr] at hk
    · exact hl

/-! ### The configuration -/

/-- `t` has the build parameters and the configuration registers of `s`. -/
structure SameConfig (s t : State) : Prop where
  build : t.build = s.build
  width : t.cfgWidth = s.cfgWidth
  sdata : t.cfgSdata = s.cfgSdata
  load : t.cfgLoad = s.cfgLoad
  clk : t.cfgClk = s.cfgClk

/-- The validity of the configuration depends on the configuration registers only. -/
theorem cfgValid_congr {s t : State} (h : SameConfig s t) : cfgValid t = cfgValid s := by
  simp only [cfgValid, h.build, h.width, h.sdata, h.load, h.clk]

/-- No phase changes the configuration (10_state.md R26). -/
theorem phaseStep_sameConfig {p : Phase} {s t : State} (h : PhaseStep s p t) : SameConfig s t := by
  cases h
  case released =>
    rw [relDone_eq]
    exact ⟨rfl, rfl, rfl, rfl, rfl⟩
  all_goals exact ⟨rfl, rfl, rfl, rfl, rfl⟩

/-- No command changes the configuration (10_state.md R26). -/
theorem commandStep_sameConfig {i : Instr} {s t : State} (h : CommandStep s i t) : SameConfig s t := by
  cases h <;> exact ⟨rfl, rfl, rfl, rfl, rfl⟩

theorem cfgWritable_iff (s : State) : cfgWritable s = true ↔ s.life ≠ .active ∧ s.seq = 0x00#5 := by
  simp [cfgWritable, busy_eq_false_iff]

/-- The host's half of a tick changes the configuration only where LIFE is not ACTIVE and no sequence runs. -/
theorem hostStep_config {s t : State} (h : HostStep s t) :
    SameConfig s t ∨ (t.build = s.build ∧ t.life ≠ .active ∧ t.seq = 0x00#5) := by
  cases h with
  | none => exact .inl ⟨rfl, rfl, rfl, rfl, rfl⟩
  | command _ hc => exact .inl (commandStep_sameConfig hc)
  | rejected => exact .inl ⟨rfl, rfl, rfl, rfl, rfl⟩
  | width hw =>
    obtain ⟨hl, hs⟩ := (cfgWritable_iff s).mp hw
    exact .inr ⟨rfl, hl, hs⟩
  | pins hw =>
    obtain ⟨hl, hs⟩ := (cfgWritable_iff s).mp hw
    exact .inr ⟨rfl, hl, hs⟩

/-! ### LIFE (10_state.md R31) -/

/-- What a phase can do to LIFE. -/
theorem phaseStep_life {p : Phase} {s t : State} (h : PhaseStep s p t) :
    t.life = s.life ∨
    (p = .iIdleClk ∧ (∃ req l, Answered s p req false l) ∧ t.life = .active) ∨
    (p = .rel ∧ (∃ req f l, Answered s p req f l) ∧ (s.tdr = .released ∨ s.tdr = .cancelled ∨ s.tdr = .fault) ∧
      t.life = .tornDown) := by
  cases h
  case configured l ha => exact .inr (.inl ⟨rfl, ⟨_, l, ha⟩, rfl⟩)
  case released f l ha =>
    rcases relDone_life { logCall reqRelease f l s with relFault := s.relFault || f } with hl | ⟨ht, hl⟩
    · exact .inl hl
    · exact .inr (.inr ⟨rfl, ⟨_, f, l, ha⟩, ht, hl⟩)
  all_goals exact .inl rfl

theorem commandStep_life {i : Instr} {s t : State} (h : CommandStep s i t) : t.life = s.life := by
  cases h <;> rfl

theorem hostStep_life {s t : State} (h : HostStep s t) : t.life = s.life := by
  cases h
  case command hw hc => exact commandStep_life hc
  all_goals rfl

/-! ### RESULT, COUNT and the error records (10_state.md R27, R36, R39, R47) -/

theorem phaseStep_result {p : Phase} {s t : State} (h : PhaseStep s p t) : t.result = s.result ∨ p = .capture := by
  cases h
  case captureTorn | captureLoop | captureEnd => exact .inr rfl
  case released => exact .inl (relDone_result _)
  all_goals exact .inl rfl

theorem hostStep_result {s t : State} (h : HostStep s t) :
    t.result = s.result ∨ writesCommand .describe s ∨ writesCommand .init s := by
  cases h
  case command i hw hc =>
    cases hc
    case initStarts | initInvalid => exact .inr (.inr hw)
    case describe => exact .inr (.inl hw)
    all_goals exact .inl rfl
  all_goals exact .inl rfl

/-- CAPTURE counts (43_acquire.md R194). -/
theorem phaseStep_count_capture {s t : State} (h : PhaseStep s .capture t) : t.count = s.count + 1#8 := by
  cases h with
  | captureTorn | captureLoop | captureEnd => rfl
  | issue hreq _ => cases hreq
  | hold hreq _ _ => cases hreq
  | initFault hp _ => cases hp
  | acqFault _ ha => cases ha.request
  | advance hq _ => cases hq
  | count hp _ => cases hp
  | expire hq _ => cases hq

/-- No other phase counts. -/
theorem phaseStep_count_of_ne {p : Phase} {s t : State} (hp : p ≠ .capture) (h : PhaseStep s p t) :
    t.count = s.count := by
  cases h
  case captureTorn | captureLoop | captureEnd => exact absurd rfl hp
  case released => exact relDone_count _
  all_goals rfl

theorem hostStep_count {s t : State} (h : HostStep s t) : t.count = s.count := by
  cases h
  case command i hw hc => cases hc <;> rfl
  all_goals rfl

/-- A phase records an error only when its call is answered with a fault, and REL's call is not recorded
(60_exceptions.md R256, R258). -/
theorem phaseStep_errorRecords {p : Phase} {s t : State} (h : PhaseStep s p t) :
    (t.err = s.err ∧ t.faultOp = s.faultOp) ∨ (p ≠ .rel ∧ ∃ req l, Answered s p req true l) := by
  cases h
  case initFault req l hp ha => exact .inr ⟨fun hr => by simp [hr, initPhase] at hp, req, l, ha⟩
  case acqFault req l hp ha => exact .inr ⟨fun hr => by simp [hr, acqPhase] at hp, req, l, ha⟩
  case released => exact .inl ⟨relDone_err _, relDone_faultOp _⟩
  all_goals exact .inl ⟨rfl, rfl⟩

theorem hostStep_errorRecords {s t : State} (h : HostStep s t) :
    (t.err = s.err ∧ t.faultOp = s.faultOp) ∨ writesCommand .init s := by
  cases h
  case command i hw hc =>
    cases hc
    case initStarts | initInvalid => exact .inr hw
    all_goals exact .inl ⟨rfl, rfl⟩
  all_goals exact .inl ⟨rfl, rfl⟩

end Sys2Proof.Machine

/-! The invariant of the machine (10_state.md R53) along phases, commands and register writes. -/

namespace Sys2Proof.Machine

open Sys2Proof.Safety

/-! ### Legal parameters and a valid configuration -/

theorem nSettle_ne_zero {c : Config} (h : c.wf = true) : c.nSettle ≠ 0#32 := by
  intro h0
  simp [Config.wf, h0] at h

theorem nCadence_ne_zero {c : Config} (h : c.wf = true) : c.nCadence ≠ 0#32 := by
  intro h0
  simp [Config.wf, h0] at h

/-- W is 1 to 64 in a valid configuration (00_scope.md R5, 41_init.md R151). -/
theorem width_bounds {s : State} (hb : s.build.wf = true) (hv : cfgValid s = true) :
    1 ≤ s.cfgWidth.toNat ∧ s.cfgWidth.toNat ≤ 64 := by
  obtain ⟨h1, hmax, _⟩ := (cfgValid_iff s).mp hv
  simp only [Config.wf, Bool.and_eq_true, decide_eq_true_iff] at hb
  omega

/-- A count that is neither 0 nor 1 does not reach 0 in one tick. -/
theorem tmr_sub_one_ne_zero {x : BitVec 32} (h1 : x ≠ 1#32) : x - 1#32 ≠ 0#32 := by
  intro h
  apply h1
  bv_omega

/-! ### The invariant, phase by phase -/

/-- A state with the invariant satisfies what the phase of SEQ demands. -/
theorem phaseInv_of_machineInv {p : Phase} {s : State} (h : MachineInv s) (hp : phaseOfCode s.seq = some p) :
    PhaseInv p s := by
  obtain ⟨q, hq, hi⟩ := h.phase
  rw [hp] at hq
  cases hq
  exact hi

/-- What holds in every init phase (10_state.md R53). -/
def InitInv (s : State) : Prop :=
  s.curOp = some .init ∧ s.life ≠ .active ∧ cfgValid s = true ∧ s.cancelPending = false ∧ s.releasePending = false

theorem initInv_of_phaseInv {p : Phase} {s : State} (hp : initPhase p = true) (h : PhaseInv p s) : InitInv s := by
  cases p
  case iCfgSdata | iCfgLoad | iCfgClk | iIdleLoad | iIdleClk => exact h
  all_goals cases hp

theorem acqInv_of_phaseInv {p : Phase} {s : State} (hp : acqPhase p = true) (h : PhaseInv p s) : AcqInv s := by
  cases p
  case idle | iCfgSdata | iCfgLoad | iCfgClk | iIdleLoad | iIdleClk | rel => cases hp
  all_goals exact h.left

/-- BIT is at most W in an acquisition (10_state.md R45). -/
theorem bit_le_width {p : Phase} {s : State} (hp : acqPhase p = true) (h : PhaseInv p s) :
    s.bit.toNat ≤ s.cfgWidth.toNat := by
  cases p
  case idle | iCfgSdata | iCfgLoad | iCfgClk | iIdleLoad | iIdleClk | rel => cases hp
  case ldFall | ldRise | ldLowWait | ldHighWait =>
    obtain ⟨_, hbit, _⟩ := h
    simp [hbit]
  case capture =>
    obtain ⟨_, hbit, _⟩ := h
    exact hbit.le
  case cadenceWait =>
    obtain ⟨_, _, hbit, _⟩ := h
    exact hbit.le
  all_goals
    obtain ⟨_, hbit, _⟩ := h
    exact hbit.le

theorem acqOp_ne_none {s : State} (h : acqOp s) : s.curOp ≠ none := by
  rcases h with h | h | h <;> simp [h]

/-- A teardown from an acquisition has what REL demands (44_teardown.md R233). -/
theorem rel_of_acqInv {s t : State} (h : AcqInv s) (hop : t.curOp = s.curOp) (hl : t.life = s.life)
    (ht : t.tdr = .released ∨ t.tdr = .cancelled ∨ t.tdr = .fault) : PhaseInv .rel t := by
  obtain ⟨hlife, hacq, _⟩ := h
  exact ⟨hop ▸ acqOp_ne_none hacq, .inl ⟨ht, hl.trans hlife⟩⟩

theorem tdr_of_pendingReason {s : State} {r : Tdr} (h : PendingReason s r) :
    r = .released ∨ r = .cancelled ∨ r = .fault := by
  rcases h with ⟨_, h⟩ | ⟨_, _, h⟩ <;> simp [h]

/-! ### What each phase leaves -/

/-- A state whose SEQ holds the code of `p` and that has what `p` demands. -/
theorem phase_at {p : Phase} {t : State} (hs : t.seq = phaseCode p) (h : PhaseInv p t) :
    ∃ q, phaseOfCode t.seq = some q ∧ PhaseInv q t :=
  ⟨p, by rw [hs, phaseOfCode_phaseCode], h⟩

theorem phaseInv_advance {p q : Phase} {req : PinReq} {l : Level} {s : State} (hb : s.build.wf = true)
    (hq : callNext p = some q) (h : PhaseInv p s) : PhaseInv q (goto q (logCall req false l s)) := by
  cases p <;> cases hq
  case iCfgSdata | iCfgLoad | iCfgClk | iIdleLoad => exact h
  all_goals
    obtain ⟨hacq, hbit, hacc⟩ := h
    exact ⟨hacq, hbit, hacc, nSettle_ne_zero hb⟩

theorem phaseInv_expire {p q : Phase} {s : State} (hb : s.build.wf = true) (hv : cfgValid s = true)
    (hq : waitNext p = some q) (h : PhaseInv p s) : PhaseInv q (goto q { s with tmr := 0#32 }) := by
  cases p <;> cases hq <;> obtain ⟨hacq, hbit, hacc, _⟩ := h
  case ldLowWait | ckHighWait => exact ⟨hacq, hbit, hacc⟩
  case ldHighWait =>
    have hw := (width_bounds hb hv).left
    refine ⟨hacq, ?_, ?_⟩
    · simpa [hbit] using Nat.pos_of_ne_zero (by omega)
    · simp [hacc]

theorem phaseInv_count {p : Phase} {s : State} (hp : settlePhase p = true) (ht : s.tmr ≠ 1#32) (h : PhaseInv p s) :
    PhaseInv p { s with tmr := s.tmr - 1#32 } := by
  cases p <;> cases hp
  all_goals
    obtain ⟨hacq, hbit, hacc, _⟩ := h
    exact ⟨hacq, hbit, hacc, tmr_sub_one_ne_zero ht⟩

/-- The next shift position, or CAPTURE with BIT = W (42_pulses.md R179). -/
theorem phase_nextBit {s : State} (hb : s.build.wf = true) (hv : cfgValid s = true) (h : PhaseInv .ckLowWait s) :
    ∃ q, phaseOfCode (nextBit { s with tmr := 0#32 }).seq = some q ∧ PhaseInv q (nextBit { s with tmr := 0#32 }) := by
  obtain ⟨hacq, hbit, hacc, _⟩ := h
  have hw := (width_bounds hb hv).right
  have hsucc : (s.bit + 1#7).toNat = s.bit.toNat + 1 := by
    rw [BitVec.toNat_add_of_lt (by simp; omega)]
    rfl
  refine phase_at rfl ?_
  dsimp only
  split
  · next hlt =>
    refine ⟨hacq, ?_, ?_⟩
    · simpa [nextBit, hsucc] using hlt
    · simpa [nextBit, hsucc] using hacc
  · next hge =>
    refine ⟨hacq, ?_, ?_⟩
    · simp only [nextBit, goto_bit, goto_cfgWidth, hsucc]
      omega
    · simpa [nextBit, hsucc] using hacc

theorem phaseInv_sampled {l : Level} {req : PinReq} {s : State} (hb : s.build.wf = true) (hv : cfgValid s = true)
    (h : PhaseInv .smp s) :
    PhaseInv .ckRise (goto .ckRise (accWrite s.bit.toNat l (logCall req false l s))) := by
  obtain ⟨hacq, hbit, hacc⟩ := h
  have hw := (width_bounds hb hv).right
  exact ⟨hacq, hbit, accSet_lt l (by omega) hacc⟩

/-- Every phase leaves a used phase code and what that phase demands. -/
theorem phaseStep_phase {p : Phase} {s t : State} (hi : MachineInv s) (hp : phaseOfCode s.seq = some p)
    (h : PhaseStep s p t) : ∃ q, phaseOfCode t.seq = some q ∧ PhaseInv q t := by
  have hpi := phaseInv_of_machineInv hi hp
  have valid : AcqInv s → cfgValid s = true := fun ha => hi.active ha.left
  cases h with
  | idle | issue | hold => exact hi.phase
  | initFault hip =>
    obtain ⟨hop, hl, _⟩ := initInv_of_phaseInv hip hpi
    exact phase_at (p := .rel) rfl ⟨by simp [hop], .inr ⟨rfl, hl⟩⟩
  | acqFault hap => exact phase_at rfl (rel_of_acqInv (acqInv_of_phaseInv hap hpi) rfl rfl (.inr (.inr rfl)))
  | advance hq => exact phase_at rfl (phaseInv_advance hi.build hq hpi)
  | configured =>
    obtain ⟨_, _, _, hc, hr⟩ := hpi
    exact phase_at (p := .idle) rfl ⟨rfl, rfl, hc, hr⟩
  | sampled => exact phase_at rfl (phaseInv_sampled hi.build (valid hpi.left) hpi)
  | released =>
    exact phase_at (p := .idle) (relDone_seq _)
      ⟨relDone_curOp _, relDone_loopMode _, relDone_cancelPending _, relDone_releasePending _⟩
  | count hsp ht => exact ⟨p, hp, phaseInv_count hsp ht hpi⟩
  | expire hq =>
    have hap : acqPhase p = true := by cases p <;> cases hq <;> rfl
    exact phase_at rfl (phaseInv_expire hi.build (valid (acqInv_of_phaseInv hap hpi)) hq hpi)
  | shifted => exact phase_nextBit hi.build (valid hpi.left) hpi
  | captureTorn hr | cadenceTorn hr => exact phase_at rfl (rel_of_acqInv hpi.left rfl rfl (tdr_of_pendingReason hr))
  | captureLoop _ hl =>
    obtain ⟨hacq, hbit, hacc⟩ := hpi
    exact phase_at (p := .cadenceWait) rfl ⟨hacq, hl, hbit, hacc, nCadence_ne_zero hi.build⟩
  | captureEnd hn => exact phase_at (p := .idle) rfl ⟨rfl, rfl, hn⟩
  | cadenceCount _ ht =>
    obtain ⟨hacq, hl, hbit, hacc, _⟩ := hpi
    exact ⟨.cadenceWait, hp, hacq, hl, hbit, hacc, tmr_sub_one_ne_zero ht⟩
  | cadenceExpire => exact phase_at (p := .ldFall) rfl ⟨hpi.left, rfl, rfl⟩

theorem phaseStep_loop {p : Phase} {s t : State} (hi : MachineInv s) (h : PhaseStep s p t) :
    t.loopMode = true → t.curOp = some .acqLoop := by
  cases h
  case configured | captureEnd | released => simp
  all_goals exact hi.loop

theorem phaseStep_active {p : Phase} {s t : State} (hi : MachineInv s) (hp : phaseOfCode s.seq = some p)
    (h : PhaseStep s p t) (hl : t.life = .active) : cfgValid t = true := by
  rw [cfgValid_congr (phaseStep_sameConfig h)]
  rcases phaseStep_life h with hsame | ⟨rfl, _, _⟩ | ⟨_, _, _, htorn⟩
  · exact hi.active (hsame ▸ hl)
  · obtain ⟨_, _, hv, _⟩ := phaseInv_of_machineInv hi hp
    exact hv
  · cases htorn.symm.trans hl

/-- Every phase keeps the invariant. -/
theorem phaseStep_machineInv {p : Phase} {s t : State} (hi : MachineInv s) (hp : phaseOfCode s.seq = some p)
    (h : PhaseStep s p t) : MachineInv t where
  build := (phaseStep_sameConfig h).build ▸ hi.build
  loop := phaseStep_loop hi h
  active := phaseStep_active hi hp h
  phase := phaseStep_phase hi hp h

/-! ### What the host leaves -/

/-- What IDLE demands. -/
theorem idleInv {s : State} (hi : MachineInv s) (hs : s.seq = 0x00#5) : PhaseInv .idle s :=
  phaseInv_of_machineInv hi (by rw [hs]; rfl)

/-- `inAcq` holds in the acquisition phases only (40_sequencer.md R124). -/
theorem acqPhase_of_inAcq {s : State} (hi : MachineInv s) (ha : inAcq s = true) :
    ∃ p, phaseOfCode s.seq = some p ∧ acqPhase p = true ∧ PhaseInv p s := by
  obtain ⟨hop, hne⟩ := (inAcq_eq_true_iff s).mp ha
  obtain ⟨p, hp, hpi⟩ := hi.phase
  refine ⟨p, hp, ?_, hpi⟩
  cases p
  case idle => exact absurd hpi.left (acqOp_ne_none hop)
  case iCfgSdata | iCfgLoad | iCfgClk | iIdleLoad | iIdleClk =>
    obtain ⟨hinit, _⟩ := hpi
    simp [acqOp, hinit] at hop
  case rel => exact absurd (phaseCode_of_phaseOfCode hp) hne
  all_goals rfl

/-- An acquisition phase demands nothing of the pending flags and of REJ. -/
theorem phaseInv_deferred {p : Phase} {s : State} {c r : Bool} {j : RejCode} (hp : acqPhase p = true)
    (h : PhaseInv p s) : PhaseInv p { s with cancelPending := c, releasePending := r, rej := j } := by
  cases p
  case idle | iCfgSdata | iCfgLoad | iCfgClk | iIdleLoad | iIdleClk | rel => cases hp
  all_goals exact h

/-- What a command leaves in the phase it leads to. -/
theorem commandStep_phase {i : Instr} {s t : State} (hi : MachineInv s) (h : CommandStep s i t) :
    ∃ q, phaseOfCode t.seq = some q ∧ PhaseInv q t := by
  cases h with
  | rejected => exact hi.phase
  | initStarts hs hl hv =>
    obtain ⟨_, _, hpend⟩ := idleInv hi hs
    exact phase_at (p := .iCfgSdata) rfl ⟨rfl, hl, hv, hpend⟩
  | initInvalid hs | describe hs =>
    have hidle := idleInv hi hs
    exact phase_at (p := .idle) hs hidle
  | acqAll _ hl => exact phase_at (p := .ldFall) rfl ⟨⟨hl, .inl rfl, nofun⟩, rfl, rfl⟩
  | acqBit _ hl hidx =>
    have hw := (width_bounds hi.build (hi.active hl)).right
    refine phase_at (p := .ldFall) rfl ⟨⟨hl, .inr (.inl rfl), fun _ => ?_⟩, rfl, rfl⟩
    simp only [beginAcq, startAcq_curIdx, startAcq_cfgWidth, BitVec.toNat_setWidth]
    exact (Nat.mod_le _ _).trans_lt hidx
  | acqLoop _ hl => exact phase_at (p := .ldFall) rfl ⟨⟨hl, .inr (.inr rfl), nofun⟩, rfl, rfl⟩
  | cancelDeferred ha | releaseDeferred ha =>
    obtain ⟨p, hp, hap, hpi⟩ := acqPhase_of_inAcq hi ha
    exact ⟨p, hp, phaseInv_deferred hap hpi⟩
  | cancelNow _ hl => exact phase_at (p := .rel) rfl ⟨nofun, .inl ⟨.inr (.inl rfl), hl⟩⟩
  | releaseNow _ hl => exact phase_at (p := .rel) rfl ⟨nofun, .inl ⟨.inl rfl, hl⟩⟩

theorem commandStep_loop {i : Instr} {s t : State} (hi : MachineInv s) (h : CommandStep s i t) :
    t.loopMode = true → t.curOp = some .acqLoop := by
  have idle : s.seq = 0x00#5 → s.loopMode = true → t.curOp = some .acqLoop := fun hs hl => by
    obtain ⟨_, hno, _⟩ := idleInv hi hs
    cases hno.symm.trans hl
  cases h with
  | rejected | cancelDeferred | releaseDeferred | describe => exact hi.loop
  | acqLoop => exact fun _ => rfl
  | initStarts hs | initInvalid hs | acqAll hs | acqBit hs | cancelNow hs | releaseNow hs => exact idle hs

/-- Every command keeps the invariant. -/
theorem commandStep_machineInv {i : Instr} {s t : State} (hi : MachineInv s) (h : CommandStep s i t) :
    MachineInv t where
  build := (commandStep_sameConfig h).build ▸ hi.build
  loop := commandStep_loop hi h
  active hl := by
    rw [cfgValid_congr (commandStep_sameConfig h)]
    exact hi.active (commandStep_life h ▸ hl)
  phase := commandStep_phase hi h

/-- The host's half of a tick keeps the invariant. -/
theorem hostStep_machineInv {s t : State} (hi : MachineInv s) (h : HostStep s t) : MachineInv t := by
  cases h with
  | none => exact hi
  | command _ hc => exact commandStep_machineInv hi hc
  | rejected => exact ⟨hi.build, hi.loop, hi.active, hi.phase⟩
  | width hw | pins hw =>
    obtain ⟨hl, hs⟩ := (cfgWritable_iff s).mp hw
    have hidle := idleInv hi hs
    exact ⟨hi.build, hi.loop, fun ha => absurd ha hl, phase_at (p := .idle) hs hidle⟩

/-- The end of a tick keeps the invariant: it is not about the inputs, the read data or the abandoned requests. -/
theorem endTick_machineInv {s : State} (hi : MachineInv s) (rd : Option Word) (n : Nat) :
    MachineInv (setStale n (endTick rd s)) :=
  ⟨hi.build, hi.loop, hi.active, hi.phase⟩

/-- The invariant holds after reset (10_state.md R52). -/
theorem ofReset_machineInv {c : Config} (hc : c.wf = true) (env : List TickIn) (rd : Option Word) (n : Nat) :
    MachineInv (setStale n (State.ofReset c env rd)) :=
  ⟨hc, nofun, nofun, .idle, rfl, rfl, rfl, rfl, rfl⟩

/-- Every step keeps the invariant. -/
theorem step_machineInv {s t : State} (hi : MachineInv s) (h : step s = .next t) : MachineInv t := by
  rcases step_inversion h with ⟨_, rd, rfl⟩ | ⟨_, p, s1, s2, rd, hp, _, h1, h2, rfl⟩
  · exact ofReset_machineInv hi.build _ rd _
  · exact endTick_machineInv (hostStep_machineInv (phaseStep_machineInv hi hp h1) h2) rd _

/-- The invariant holds in every reachable state. -/
theorem reachable_machineInv {t : State} (h : Reachable t) : MachineInv t := by
  obtain ⟨c, env, n, hc, hrun⟩ := h
  exact reachable MachineInv (fun _ _ => step_machineInv) (ofReset_machineInv hc env none 0) hrun

/-- Settles O37: the phase, the host's half and the end of a tick each keep the invariant. -/
theorem machineInvKept : Obligations.MachineInvKept := fun _ _ => step_machineInv

/-- Settles O36. -/
theorem machineInvAtReset : Obligations.MachineInvAtReset :=
  ⟨ofReset_machineInv (by decide) [] none 0, fun _ env rd hc => ofReset_machineInv hc env rd 0⟩

end Sys2Proof.Machine

/-! The levels of the control lines (10_state.md R54) along phases, commands and register writes. -/

namespace Sys2Proof.Machine

open Sys2Proof.Safety

/-! ### A call and the lines -/

@[simp] theorem levelArg_bit (l : Level) : (levelArg l)[0] = l := by cases l <;> rfl

/-- A successful WRITE to LOAD sets the level of LOAD and keeps that of CLK. -/
theorem lines_writeLoad {s : State} {a b l : Level} (hne : s.cfgLoad ≠ s.cfgClk) (h : lines a b s) (lv : Level) :
    lines l b (logCall (reqWrite s.cfgLoad l) false lv s) := by
  obtain ⟨_, hclk⟩ := h
  constructor
  · simp [lastLevel_snoc, reqWrite]
  · simpa [lastLevel_snoc, reqWrite, hne] using hclk

/-- A successful WRITE to CLK sets the level of CLK and keeps that of LOAD. -/
theorem lines_writeClk {s : State} {a l : Level} (hne : s.cfgLoad ≠ s.cfgClk)
    (h : lastLevel s.cfgLoad s.trace = some a) (lv : Level) :
    lines a l (logCall (reqWrite s.cfgClk l) false lv s) := by
  constructor
  · simpa [lastLevel_snoc, reqWrite, hne.symm] using h
  · simp [lastLevel_snoc, reqWrite]

/-- A READ keeps both levels. -/
theorem lines_read {s : State} {a b : Level} (h : lines a b s) (lv : Level) :
    lines a b (logCall (reqRead s) false lv s) := by
  obtain ⟨hload, hclk⟩ := h
  constructor
  · simpa [lastLevel_snoc, reqRead] using hload
  · simpa [lastLevel_snoc, reqRead] using hclk

/-! ### What each phase leaves -/

/-- A state whose SEQ holds the code of `p` and whose lines are as `p` has them. -/
theorem line_at {p : Phase} {t : State} (hs : t.seq = phaseCode p) (h : LineAt p t) : LineInv t := by
  intro q hq
  rw [hs, phaseOfCode_phaseCode] at hq
  cases hq
  exact h

theorem load_ne_clk {s : State} (h : cfgValid s = true) : s.cfgLoad ≠ s.cfgClk := by
  obtain ⟨_, _, _, _, _, _, _, hne⟩ := (cfgValid_iff s).mp h
  exact hne

/-- The configuration is valid in every init phase and every acquisition phase. -/
theorem valid_of_phaseInv {p : Phase} {s : State} (hi : MachineInv s) (hp : initPhase p = true ∨ acqPhase p = true)
    (h : PhaseInv p s) : cfgValid s = true := by
  rcases hp with hp | hp
  · obtain ⟨_, _, hv, _⟩ := initInv_of_phaseInv hp h
    exact hv
  · exact hi.active (acqInv_of_phaseInv hp h).left

theorem lineAt_advance {p q : Phase} {req : PinReq} {l : Level} {s : State} (hne : s.cfgLoad ≠ s.cfgClk)
    (hq : callNext p = some q) (hreq : phaseRequest p s = some req) (h : LineAt p s) :
    LineAt q (goto q (logCall req false l s)) := by
  cases p <;> cases hq <;> cases hreq
  case iCfgSdata | iCfgLoad | iCfgClk => exact trivial
  case iIdleLoad => simp [LineAt, lastLevel_snoc, reqWrite]
  case ldFall | ldRise => exact lines_writeLoad hne h l
  case ckRise | ckFall => exact lines_writeClk hne h.left l

/-- A settle wait neither begins nor ends a pulse (42_pulses.md R172, R174, R177). -/
theorem lineAt_expire {p q : Phase} {s : State} (hq : waitNext p = some q) (h : LineAt p s) :
    LineAt q (goto q { s with tmr := 0#32 }) := by
  cases p <;> cases hq <;> exact h

theorem lineInv_nextBit {s : State} (h : lines true false s) : LineInv (nextBit s) := by
  refine line_at (p := if s.bit.toNat + 1 < s.cfgWidth.toNat then .smp else .capture) rfl ?_
  split <;> exact h

/-- Every phase leaves the lines at the levels of the phase it leads to. -/
theorem phaseStep_lineInv {p : Phase} {s t : State} (hi : MachineInv s) (hl : LineInv s)
    (hp : phaseOfCode s.seq = some p) (h : PhaseStep s p t) : LineInv t := by
  have hline := hl p hp
  have hpi := phaseInv_of_machineInv hi hp
  have pins : initPhase p = true ∨ acqPhase p = true → s.cfgLoad ≠ s.cfgClk :=
    fun hk => load_ne_clk (valid_of_phaseInv hi hk hpi)
  cases h with
  | idle | issue | hold | count | cadenceCount => exact hl
  | initFault | acqFault => exact line_at (p := .rel) rfl (by simp [LineAt, fatalTdr])
  | advance hq ha =>
    have hk : initPhase p = true ∨ acqPhase p = true := by cases p <;> cases hq <;> simp [initPhase, acqPhase]
    exact line_at rfl (lineAt_advance (pins hk) hq ha.request hline)
  | configured => exact line_at (p := .idle) rfl fun _ => lines_writeClk (pins (.inl rfl)) hline _
  | sampled => exact line_at (p := .ckRise) rfl (lines_read hline _)
  | released =>
    obtain ⟨_, htear⟩ := hpi
    exact line_at (p := .idle) (relDone_seq _) fun ha => absurd ha (relDone_not_active htear)
  | expire hq => exact line_at rfl (lineAt_expire hq hline)
  | shifted => exact lineInv_nextBit hline
  | captureTorn | cadenceTorn => exact line_at (p := .rel) rfl fun _ => hline
  | captureLoop => exact line_at (p := .cadenceWait) rfl hline
  | captureEnd => exact line_at (p := .idle) rfl fun _ => hline
  | cadenceExpire => exact line_at (p := .ldFall) rfl hline

/-! ### What the host leaves -/

/-- Every command leaves the lines at the levels of the phase it leads to. -/
theorem commandStep_lineInv {i : Instr} {s t : State} (hl : LineInv s) (h : CommandStep s i t) : LineInv t := by
  have idle : s.seq = 0x00#5 → LineAt .idle s := fun hs => hl .idle (by rw [hs]; rfl)
  cases h with
  | rejected | cancelDeferred | releaseDeferred | describe => exact hl
  | initStarts => exact line_at (p := .iCfgSdata) rfl trivial
  | initInvalid hs hna => exact line_at (p := .idle) hs fun ha => absurd ha hna
  | acqAll hs ha | acqBit hs ha | acqLoop hs ha =>
    have hline := idle hs ha
    exact line_at (p := .ldFall) rfl hline
  | cancelNow hs ha | releaseNow hs ha =>
    have hline := idle hs ha
    exact line_at (p := .rel) rfl fun _ => hline

theorem hostStep_lineInv {s t : State} (hl : LineInv s) (h : HostStep s t) : LineInv t := by
  cases h with
  | none => exact hl
  | command _ hc => exact commandStep_lineInv hl hc
  | rejected => exact hl
  | width hw | pins hw =>
    obtain ⟨hna, hs⟩ := (cfgWritable_iff s).mp hw
    exact line_at (p := .idle) hs fun ha => absurd ha hna

theorem ofReset_lineInv (c : Config) (env : List TickIn) (rd : Option Word) (n : Nat) :
    LineInv (setStale n (State.ofReset c env rd)) :=
  line_at (p := .idle) rfl nofun

/-- Every step keeps the levels of the control lines. -/
theorem step_lineInv {s t : State} (hi : MachineInv s) (hl : LineInv s) (h : step s = .next t) : LineInv t := by
  rcases step_inversion h with ⟨_, rd, rfl⟩ | ⟨_, p, s1, s2, rd, hp, _, h1, h2, rfl⟩
  · exact ofReset_lineInv _ _ _ _
  · have hline := hostStep_lineInv (phaseStep_lineInv hi hl hp h1) h2
    exact hline

/-- The lines are at the levels of the phase in every reachable state. -/
theorem reachable_lineInv {t : State} (h : Reachable t) : LineInv t := by
  obtain ⟨c, env, n, hc, hrun⟩ := h
  have both : MachineInv t ∧ LineInv t :=
    reachable (fun u => MachineInv u ∧ LineInv u)
      (fun _ _ ⟨hi, hl⟩ hstep => ⟨step_machineInv hi hstep, step_lineInv hi hl hstep⟩)
      ⟨ofReset_machineInv hc env none 0, ofReset_lineInv c env none 0⟩ hrun
  exact both.right

/-- Settles O39: the phase and the host's half of a tick each leave the lines at the levels of the next phase. -/
theorem lineInvKept : Obligations.LineInvKept := fun _ _ => step_lineInv

/-- Settles O40: both phases of the claim have the idle levels in `LineAt`. -/
theorem idleLevels : Obligations.IdleLevels := by
  intro t ht hlife hseq
  rcases hseq with hs | hs
  · exact reachable_lineInv ht .idle (by rw [hs]; rfl) hlife
  · exact reachable_lineInv ht .cadenceWait (by rw [hs]; rfl)

end Sys2Proof.Machine

/-! The STATUS word, the reset values, and what R53 says of every reachable state. -/

namespace Sys2Proof.Machine

open Sys2Proof.Safety

theorem toNat_append_eq_add {m n : Nat} (x : BitVec m) (y : BitVec n) :
    (x ++ y).toNat = 2 ^ n * x.toNat + y.toNat := by
  rw [BitVec.toNat_append, ← Nat.shiftLeft_add_eq_or_of_lt y.isLt, Nat.shiftLeft_eq, Nat.mul_comm]

/-- The STATUS word as a number, field by field (10_state.md R23). -/
theorem statusWord_toNat (s : State) :
    (statusWord s).toNat =
      (busy s).toNat + 2 * s.done.toNat + 2 ^ 2 * (lifeCode s.life).toNat + 2 ^ 4 * s.loopMode.toNat +
      2 ^ 5 * s.cancelPending.toNat + 2 ^ 6 * s.releasePending.toNat + 2 ^ 7 * s.relFault.toNat +
      2 ^ 8 * (errCode s.err).toNat + 2 ^ 12 * (rejCode s.rej).toNat + 2 ^ 16 * (exitCode s.exit).toNat +
      2 ^ 18 * (faultOpCode s.faultOp).toNat + 2 ^ 24 * s.count.toNat := by
  unfold statusWord
  repeat rw [toNat_append_eq_add]
  simp only [BitVec.toNat_ofBool, BitVec.toNat_ofNat]
  omega

/-- A bit of a word, as a number. -/
theorem getLsbD_eq_of_toNat {w i : Nat} {x : BitVec w} {b : Bool} (h : x.toNat / 2 ^ i % 2 = b.toNat) :
    x.getLsbD i = b := by
  rw [BitVec.getLsbD, Nat.testBit_eq_decide_div_mod_eq, h]
  cases b <;> rfl

/-- A field of a word, as a number. -/
theorem extractLsb'_eq_of_toNat {w i n : Nat} {x : BitVec w} {y : BitVec n} (h : x.toNat / 2 ^ i % 2 ^ n = y.toNat) :
    x.extractLsb' i n = y := by
  apply BitVec.eq_of_toNat_eq
  rw [BitVec.extractLsb'_toNat, Nat.shiftRight_eq_div_pow, h]

/-- Settles O8: the word is a sum of fields, and each of them is read off by division and remainder. -/
theorem statusWordLayout : Obligations.StatusWordLayout := by
  intro s
  have hw := statusWord_toNat s
  have hbusy := (busy s).toNat_lt
  have hdone := s.done.toNat_lt
  have hlife := (lifeCode s.life).isLt
  have hloop := s.loopMode.toNat_lt
  have hcancel := s.cancelPending.toNat_lt
  have hrelease := s.releasePending.toNat_lt
  have hrelFault := s.relFault.toNat_lt
  have herr := (errCode s.err).isLt
  have hrej := (rejCode s.rej).isLt
  have hexit := (exitCode s.exit).isLt
  have hfaultOp := (faultOpCode s.faultOp).isLt
  have hcount := s.count.isLt
  have lifeField : (statusWord s).extractLsb' 2 2 = lifeCode s.life := extractLsb'_eq_of_toNat (by omega)
  have errField : (statusWord s).extractLsb' 8 3 = errCode s.err := extractLsb'_eq_of_toNat (by omega)
  have rejField : (statusWord s).extractLsb' 12 3 = rejCode s.rej := extractLsb'_eq_of_toNat (by omega)
  have exitField : (statusWord s).extractLsb' 16 2 = exitCode s.exit := extractLsb'_eq_of_toNat (by omega)
  have faultOpField : (statusWord s).extractLsb' 18 3 = faultOpCode s.faultOp := extractLsb'_eq_of_toNat (by omega)
  refine ⟨getLsbD_eq_of_toNat (b := busy s) ?_, getLsbD_eq_of_toNat ?_, ?_, getLsbD_eq_of_toNat ?_,
    getLsbD_eq_of_toNat ?_, getLsbD_eq_of_toNat ?_, getLsbD_eq_of_toNat ?_, ?_, getLsbD_eq_of_toNat ?_, ?_,
    getLsbD_eq_of_toNat ?_, ?_, ?_, extractLsb'_eq_of_toNat ?_, extractLsb'_eq_of_toNat ?_⟩
  case refine_3 => rw [lifeField]; cases s.life <;> rfl
  case refine_8 => rw [errField]; cases s.err <;> rfl
  case refine_10 => rw [rejField]; cases s.rej <;> rfl
  case refine_12 => rw [exitField]; cases s.exit <;> rfl
  case refine_13 => rw [faultOpField]; rcases s.faultOp with _ | _ | _ | _ | _ | _ <;> rfl
  case refine_9 | refine_11 | refine_14 => simp only [Bool.toNat_false, BitVec.toNat_ofNat]; omega
  all_goals omega

/-- Settles O14: IDLE makes no request, and the rest is `State.ofReset` read off. -/
theorem resetValues : Obligations.ResetValues := by
  rintro build env rdata s rfl
  have hport : (pinPort (State.ofReset build env rdata)).valid = false := by
    have hreq : requestNow (State.ofReset build env rdata) = none := by
      unfold requestNow
      split <;> rfl
    simp [pinPort, hreq]
  obtain ⟨hbusy, _⟩ := statusWordLayout (State.ofReset build env rdata)
  exact ⟨rfl, rfl, rfl, rfl, rfl, rfl, rfl, rfl, rfl, rfl, rfl, rfl, rfl, rfl, rfl, rfl, hbusy, rfl, rfl, rfl, rfl,
    rfl, rfl, rfl, rfl, rfl, hport⟩

/-! ### R53 in every reachable state -/

/-- The codes 0x01 to 0x05 are the init phases, 0x08 to 0x12 the acquisition phases (30_encoding.md R100). -/
theorem phase_of_code {c : BitVec 5} {p : Phase} (h : phaseOfCode c = some p) :
    (0x01 ≤ c.toNat ∧ c.toNat ≤ 0x05 → initPhase p = true) ∧
    (0x08 ≤ c.toNat ∧ c.toNat ≤ 0x12 → acqPhase p = true) := by
  obtain rfl := phaseCode_of_phaseOfCode h
  cases p <;> decide

/-- Settles O38: the invariant of every reachable state, read at the codes of the phases. -/
theorem reachableStatus : Obligations.ReachableStatus := by
  intro t ht
  have hi := reachable_machineInv ht
  obtain ⟨p, hp, hpi⟩ := hi.phase
  obtain ⟨hinit, hacq⟩ := phase_of_code hp
  obtain ⟨hbusy, _⟩ := statusWordLayout t
  refine ⟨by rw [hbusy, decide_eq_true_iff], idleInv hi, fun hc => ?_, fun hc => ?_⟩
  · obtain ⟨hl, hop, _⟩ := acqInv_of_phaseInv (hacq hc) hpi
    exact ⟨hl, hop, bit_le_width (hacq hc) hpi⟩
  · obtain ⟨hop, hl, _⟩ := initInv_of_phaseInv (hinit hc) hpi
    exact ⟨hop, hl⟩

end Sys2Proof.Machine

/-! Register writes other than CMD, and what only certain events change. -/

namespace Sys2Proof.Machine

open Sys2Proof.Safety

/-! ### Register writes (10_state.md R26, R29) -/

theorem busWrite_of_ne_cmd {r : HostReg} (h : r ≠ .cmd) (v : Word) (s : State) :
    busWrite r v s = .next (writeReg r v s) := by
  cases r
  case cmd => exact absurd rfl h
  all_goals rfl

/-- A write to a register other than CMD, in a tick whose phase leaves `s1`. -/
theorem step_writeReg {s s1 : State} {i : Instr} {v : Word} {off : Nat} (hs : spurious s = false)
    (hr : rstNow s = false) (hi : decode (.uop s.seq) = .ok i) (hx : exec i s = .next s1) (hoff : off < 32)
    (h4 : off % 4 = 0) (hcmd : regAt off ≠ .cmd) (hacc : accNow s = some (.write (s.build.sicBase + off) 4 v)) :
    step s = .next { writeReg (regAt off) v s1 with
      env := (writeReg (regAt off) v s1).env.tail, rdata := none, stale := staleAfter s } := by
  have hports := exec_samePorts hx
  have hacc1 : accNow s1 = some (.write (s1.build.sicBase + off) 4 v) := by
    rw [accNow_congr hports, hports.left, hacc]
  rw [step_of hs hr hi hx]
  simp only [busAccess, hacc1, target_reg hoff h4, busWrite_of_ne_cmd hcmd]
  rfl

/-- Settles O10: none of the five offsets selects CMD, CFG_WIDTH or CFG_PINS. -/
theorem otherWritesIgnored : Obligations.OtherWritesIgnored := by
  intro s s1 i v off hs hr hi hx hoff hacc
  obtain ⟨_, henv, _⟩ := exec_samePorts hx
  have hin : off < 32 ∧ off % 4 = 0 := by
    simp only [List.mem_cons, List.not_mem_nil, or_false] at hoff
    omega
  have hreg : regAt off ≠ .cmd ∧ writeReg (regAt off) v s1 = s1 := by
    simp only [List.mem_cons, List.not_mem_nil, or_false] at hoff
    rcases hoff with rfl | rfl | rfl | rfl | rfl <;> exact ⟨by decide, rfl⟩
  obtain ⟨hcmd, hsame⟩ := hreg
  rw [step_writeReg hs hr hi hx hin.left hin.right hcmd hacc, hsame, henv]

/-- Settles O9: the write takes effect exactly where the configuration is writable. -/
theorem configWrites : Obligations.ConfigWrites := by
  intro s s1 i v hs hr hi hx
  obtain ⟨_, henv, _⟩ := exec_samePorts hx
  have width := step_writeReg (v := v) (off := 0x08) hs hr hi hx (by decide) (by decide) (by decide)
  have pins := step_writeReg (v := v) (off := 0x0C) hs hr hi hx (by decide) (by decide) (by decide)
  refine ⟨fun hacc hl hseq => ?_, fun hacc hl hseq => ?_, fun hacc hlocked => ?_⟩
  · have hw := (cfgWritable_iff s1).mpr ⟨hl, hseq⟩
    rw [width hacc, ← henv]
    simp [regAt, writeReg, hw]
  · have hw := (cfgWritable_iff s1).mpr ⟨hl, hseq⟩
    rw [pins hacc, ← henv]
    simp [regAt, writeReg, hw]
  · have hw : cfgWritable s1 = false := by
      rw [Bool.eq_false_iff, ne_eq, cfgWritable_iff]
      rintro ⟨hl, hseq⟩
      rcases hlocked with h | h
      · exact hl h
      · exact h hseq
    rcases hacc with hacc | hacc
    · rw [width hacc, ← henv]
      simp [regAt, writeReg, hw]
    · rw [pins hacc, ← henv]
      simp [regAt, writeReg, hw]

/-! ### What only certain events change -/

/-- Settles O46: the phase alone changes LIFE, and the invariant says what LIFE was. -/
theorem lifeChangesOnly : Obligations.LifeChangesOnly := by
  intro s t hi h hne
  rcases step_inversion h with ⟨hr, rd, rfl⟩ | ⟨hr, p, s1, s2, rd, hp, _, h1, h2, rfl⟩
  · exact .inl ⟨hr, rfl⟩
  · have hseq := phaseCode_of_phaseOfCode hp
    have hpi := phaseInv_of_machineInv hi hp
    rw [setStale_life, endTick_life, hostStep_life h2] at hne ⊢
    rcases phaseStep_life h1 with hsame | ⟨rfl, ⟨req, l, ha⟩, hact⟩ | ⟨rfl, ⟨req, f, l, ha⟩, htdr, htorn⟩
    · exact absurd hsame hne
    · obtain ⟨_, hl, _⟩ := hpi
      exact .inr (.inl ⟨hr, hseq, ha.waits, ⟨l, ha.response⟩, hl, hact⟩)
    · obtain ⟨_, ⟨_, hl⟩ | ⟨hfail, _⟩⟩ := hpi
      · exact .inr (.inr ⟨hr, hseq, ha.waits, ⟨_, ha.response⟩, htdr, hl, htorn⟩)
      · simp [hfail] at htdr

/-- Settles O47: the phase keeps the configuration, and the host changes it only where it is writable. -/
theorem configurationImmutable : Obligations.ConfigurationImmutable := by
  intro s t h
  rcases step_inversion h with ⟨hr, rd, rfl⟩ | ⟨hr, p, s1, s2, rd, hp, _, h1, h2, rfl⟩
  · exact ⟨rfl, by simp⟩
  · have c1 := phaseStep_sameConfig h1
    rcases hostStep_config h2 with c2 | ⟨hb, hl, hs⟩
    · exact ⟨c2.build.trans c1.build, fun _ => ⟨c2.width.trans c1.width, c2.sdata.trans c1.sdata,
        c2.load.trans c1.load, c2.clk.trans c1.clk⟩⟩
    · refine ⟨hb.trans c1.build, fun hk => ?_⟩
      rcases hk with hk | hk
      · exact absurd hk hl
      · exact absurd hs hk

/-- Settles O48: of the phases only CAPTURE writes RESULT, of the commands only DESCRIBE and INIT. -/
theorem resultChangesOnly : Obligations.ResultChangesOnly := by
  intro s t h hne
  rcases step_inversion h with ⟨hr, _⟩ | ⟨_, p, s1, s2, rd, hp, hports, h1, h2, rfl⟩
  · exact .inl hr
  · rcases phaseStep_result h1 with e1 | rfl
    · rcases hostStep_result h2 with e2 | hw | hw
      · exact absurd (e2.trans e1) hne
      · exact .inr (.inr (.inl (writesCommand_congr hports hw)))
      · exact .inr (.inr (.inr (writesCommand_congr hports hw)))
    · exact .inr (.inl (phaseCode_of_phaseOfCode hp))

/-- Settles O49: CAPTURE counts, and no other phase and nothing of the host's half does. -/
theorem countCountsCaptures : Obligations.CountCountsCaptures := by
  intro s t h
  rcases step_inversion h with ⟨hr, rd, rfl⟩ | ⟨hr, p, s1, s2, rd, hp, _, h1, h2, rfl⟩
  · rw [if_pos hr]
    rfl
  · rw [setStale_count, endTick_count, hostStep_count h2, if_neg (Bool.eq_false_iff.mp hr)]
    split
    · next hc =>
      rw [hc] at hp
      cases hp
      exact phaseStep_count_capture h1
    · next hc =>
      refine phaseStep_count_of_ne (fun hcap => hc ?_) h1
      rw [phaseCode_of_phaseOfCode hp, hcap]
      rfl

theorem awaiting_of_answered {s : State} {p : Phase} {req : PinReq} {f : Bool} {l : Level}
    (hp : phaseOfCode s.seq = some p) (ha : Answered s p req f l) : awaiting s = true := by
  simp [awaiting, hp, ha.request, ha.waits]

/-- Settles O50: of a phase, only a call answered with a fault records an error; of a command, only INIT. -/
theorem errorRecordsKept : Obligations.ErrorRecordsKept := by
  intro s t h hne
  rcases step_inversion h with ⟨hr, _⟩ | ⟨_, p, s1, s2, rd, hp, hports, h1, h2, rfl⟩
  · exact .inl hr
  · rcases phaseStep_errorRecords h1 with ⟨e1, o1⟩ | ⟨hrel, req, l, ha⟩
    · rcases hostStep_errorRecords h2 with ⟨e2, o2⟩ | hw
      · rcases hne with hne | hne
        · exact absurd (e2.trans e1) hne
        · exact absurd (o2.trans o1) hne
      · exact .inr (.inl (writesCommand_congr hports hw))
    · refine .inr (.inr ⟨fun hs => hrel ?_, awaiting_of_answered hp ha, l, ha.response⟩)
      rw [hs] at hp
      cases hp
      rfl

end Sys2Proof.Machine

/-! Which inputs of a tick reach the block: an instruction reads only the response that its call waits for. -/

namespace Sys2Proof.Machine

/-! ### Other inputs for the same block -/

/-- The block of `s` with the coming inputs `e` and `n` abandoned requests. -/
def withInputs (e : List TickIn) (n : Nat) (s : State) : State := { s with env := e, stale := n }

/-- An operation of the sequencer that neither reads nor changes the coming inputs and the abandoned requests. -/
def InputBlind (f : State → State) : Prop := ∀ e n s, f (withInputs e n s) = withInputs e n (f s)

/-- `InputBlind`, for an operation that may refuse. -/
def ResultBlind (f : State → Result) : Prop :=
  ∀ e n s, f (withInputs e n s) = andThen (f s) fun t => .next (withInputs e n t)

theorem inputBlind_ite {c : State → Prop} [DecidablePred c] {f g : State → State}
    (hc : ∀ e n s, c (withInputs e n s) ↔ c s) (hf : InputBlind f) (hg : InputBlind g) :
    InputBlind fun s => if c s then f s else g s := by
  intro e n s
  simp only [hc e n s]
  split
  · exact hf e n s
  · exact hg e n s

theorem resultBlind_ite {c : State → Prop} [DecidablePred c] {f g : State → Result}
    (hc : ∀ e n s, c (withInputs e n s) ↔ c s) (hf : ResultBlind f) (hg : ResultBlind g) :
    ResultBlind fun s => if c s then f s else g s := by
  intro e n s
  simp only [hc e n s]
  split
  · exact hf e n s
  · exact hg e n s

theorem InputBlind.result {f : State → State} (hf : InputBlind f) : ResultBlind fun s => .next (f s) :=
  fun e n s => congrArg Host.Outcome.next (hf e n s)

theorem andThen_assoc (r : Result) (f g : State → Result) :
    andThen (andThen r f) g = andThen r fun s => andThen (f s) g := by
  cases r <;> rfl

/-! ### The shared operations -/

theorem goto_inputBlind (p : Phase) : InputBlind (goto p) := fun _ _ _ => rfl

theorem fatal_inputBlind (k : FatalKind) (op : PinOp) : InputBlind (fatal k op) := fun _ _ _ => rfl

theorem relDone_inputBlind : InputBlind relDone := by
  intro e n s
  unfold relDone
  cases h : s.tdr <;> simp [withInputs, endSeq, h]

theorem waitStep_inputBlind {f : State → State} (hf : InputBlind f) : InputBlind (waitStep f) := by
  intro e n s
  by_cases ht : s.tmr = 1#32
  · rw [waitStep_expire ht, waitStep_expire (s := withInputs e n s) ht]
    exact hf e n { s with tmr := 0#32 }
  · rw [waitStep_count ht, waitStep_count (s := withInputs e n s) ht]
    rfl

theorem takePending_inputBlind {f : State → State} (hf : InputBlind f) : InputBlind (takePending f) :=
  inputBlind_ite (fun _ _ _ => Iff.rfl) (fun _ _ _ => rfl)
    (inputBlind_ite (fun _ _ _ => Iff.rfl) (fun _ _ _ => rfl) hf)

theorem boundary_inputBlind : InputBlind boundary :=
  takePending_inputBlind (inputBlind_ite (fun _ _ _ => Iff.rfl) (goto_inputBlind _) fun _ _ _ => rfl)

/-- A call reads the response of the tick only while it waits (20_memory.md R78, 40_sequencer.md R128). -/
theorem callStep_withInputs {e : List TickIn} {n : Nat} {s : State} {req : PinReq} {f : Level → State → State}
    {g : State → State} (hrsp : s.callst = .wait → rspNow (withInputs e n s) = rspNow s)
    (hf : ∀ l, InputBlind (f l)) (hg : InputBlind g) :
    callStep req f g (withInputs e n s) = withInputs e n (callStep req f g s) := by
  rcases callStep_cases req f g s with ⟨hc, h⟩ | ⟨hc, hr, h⟩ | ⟨l, hc, hr, h⟩ | ⟨l, hc, hr, h⟩ <;> rw [h]
  · exact callStep_issue (s := withInputs e n s) hc ..
  · exact callStep_hold (s := withInputs e n s) hc ((hrsp hc).trans hr) ..
  · rw [callStep_ok (s := withInputs e n s) hc ((hrsp hc).trans hr)]
    exact hf l e n (logCall req false l s)
  · rw [callStep_fault (s := withInputs e n s) hc ((hrsp hc).trans hr)]
    exact hg e n (logCall req true l s)

theorem reject_inputBlind (c : RejCode) : InputBlind (reject c) := fun _ _ _ => rfl

theorem acceptIdle_resultBlind {legal : Bool} {f : State → Result} (hf : ResultBlind f) :
    ResultBlind (acceptIdle legal f) :=
  resultBlind_ite (fun _ _ _ => Iff.rfl) (reject_inputBlind _).result
    (resultBlind_ite (fun _ _ _ => Iff.rfl) (fun e n s => hf e n (accepted s)) (reject_inputBlind _).result)

theorem acceptTeardown_resultBlind {d i : State → State} (hd : InputBlind d) (hi : InputBlind i) :
    ResultBlind (acceptTeardown d i) :=
  resultBlind_ite (fun _ _ _ => Iff.rfl)
    (resultBlind_ite (fun _ _ _ => Iff.rfl) (InputBlind.result fun e n s => hd e n (accepted s))
      (reject_inputBlind _).result)
    (resultBlind_ite (fun _ _ _ => Iff.rfl) (InputBlind.result fun e n s => hi e n (accepted s))
      (reject_inputBlind _).result)

theorem performInit_resultBlind : ResultBlind performInit :=
  resultBlind_ite (fun _ _ _ => Iff.rfl)
    (resultBlind_ite (fun _ _ _ => Iff.rfl) (fun _ _ _ => rfl) (fun _ _ _ => rfl)) (fun _ _ _ => rfl)

theorem execAcqBit_resultBlind (idx : BitVec 7) : ResultBlind (execAcqBit idx) :=
  resultBlind_ite (fun _ _ _ => Iff.rfl) (reject_inputBlind _).result
    (resultBlind_ite (fun _ _ _ => Iff.rfl)
      (resultBlind_ite (fun _ _ _ => Iff.rfl) (fun _ _ _ => rfl) (reject_inputBlind _).result)
      (reject_inputBlind _).result)

theorem writeReg_inputBlind (r : HostReg) (v : Word) : InputBlind (writeReg r v) := by
  cases r
  case cfgWidth => exact inputBlind_ite (fun _ _ _ => Iff.rfl) (fun _ _ _ => rfl) fun _ _ _ => rfl
  case cfgPins => exact inputBlind_ite (fun _ _ _ => Iff.rfl) (fun _ _ _ => rfl) fun _ _ _ => rfl
  all_goals exact fun _ _ _ => rfl

/-! ### The instructions -/

/-- A phase reads nothing of the inputs but the response its call waits for. -/
theorem exec_phase_withInputs {p : Phase} {e : List TickIn} {n : Nat} {s : State}
    (hrsp : (phaseRequest p s).isSome = true → s.callst = .wait → rspNow (withInputs e n s) = rspNow s) :
    exec (phaseInstr p) (withInputs e n s) = andThen (exec (phaseInstr p) s) fun t => .next (withInputs e n t) := by
  have init : ∀ {req : PinReq} {f : State → State}, InputBlind f → (phaseRequest p s).isSome = true →
      initCall req f (withInputs e n s) = withInputs e n (initCall req f s) :=
    fun hf hp => callStep_withInputs (hrsp hp) (fun _ => hf) (fatal_inputBlind _ _)
  have acq : ∀ {req : PinReq} {f : Level → State → State}, (∀ l, InputBlind (f l)) →
      (phaseRequest p s).isSome = true → acqCall req f (withInputs e n s) = withInputs e n (acqCall req f s) :=
    fun hf hp => callStep_withInputs (hrsp hp) hf (fatal_inputBlind _ _)
  cases p <;> refine congrArg Host.Outcome.next ?_
  case idle => rfl
  case iCfgSdata => exact init (goto_inputBlind _) rfl
  case iCfgLoad => exact init (goto_inputBlind _) rfl
  case iCfgClk => exact init (goto_inputBlind _) rfl
  case iIdleLoad => exact init (goto_inputBlind _) rfl
  case iIdleClk => exact init (fun _ _ _ => rfl) rfl
  case ldFall => exact acq (fun _ => goto_inputBlind _) rfl
  case ldLowWait => exact waitStep_inputBlind (goto_inputBlind _) e n s
  case ldRise => exact acq (fun _ => goto_inputBlind _) rfl
  case ldHighWait => exact waitStep_inputBlind (goto_inputBlind _) e n s
  case smp => exact acq (fun _ _ _ _ => rfl) rfl
  case ckRise => exact acq (fun _ => goto_inputBlind _) rfl
  case ckHighWait => exact waitStep_inputBlind (goto_inputBlind _) e n s
  case ckFall => exact acq (fun _ => goto_inputBlind _) rfl
  case ckLowWait => exact waitStep_inputBlind (fun _ _ _ => rfl) e n s
  case capture => exact boundary_inputBlind e n (latched s)
  case cadenceWait => exact takePending_inputBlind (waitStep_inputBlind fun _ _ _ => rfl) e n s
  case rel =>
    exact callStep_withInputs (hrsp rfl) (fun _ => relDone_inputBlind)
      fun e n s => relDone_inputBlind e n { s with relFault := true }

/-- A command reads nothing of the inputs. -/
theorem exec_command_resultBlind {v : Word} {i : Instr} (hi : decodeCommand v = .ok i) : ResultBlind (exec i) := by
  intro e n s
  rcases decodeCommand_command hi with rfl | rfl | ⟨idx, rfl⟩ | rfl | rfl | rfl | rfl
  · exact acceptIdle_resultBlind performInit_resultBlind e n s
  · exact acceptIdle_resultBlind (f := fun s => .next (beginAcq .acqAll s)) (fun _ _ _ => rfl) e n s
  · exact execAcqBit_resultBlind idx e n s
  · exact acceptIdle_resultBlind (f := fun s => .next (beginAcq .acqLoop { s with loopMode := true }))
      (fun _ _ _ => rfl) e n s
  · exact acceptTeardown_resultBlind (fun _ _ _ => rfl) (fun _ _ _ => rfl) e n s
  · exact acceptIdle_resultBlind (f := fun s => .next { s with result := describeWord s, done := true })
      (fun _ _ _ => rfl) e n s
  · exact acceptTeardown_resultBlind (fun _ _ _ => rfl) (fun _ _ _ => rfl) e n s

/-- A register write reads nothing of the inputs. -/
theorem busWrite_resultBlind (r : HostReg) (v : Word) : ResultBlind (busWrite r v) := by
  intro e n s
  cases r
  case cmd =>
    simp only [busWrite, acceptWord]
    cases h : decodeCommand v with
    | ok i => exact exec_command_resultBlind h e n s
    | error c => rfl
  all_goals exact (writeReg_inputBlind _ v).result e n s

/-! ### The halves of the tick (40_sequencer.md R120) -/

/-- The first half of a tick: reset or the phase. -/
def blockHalf (s : State) : Result :=
  if rstNow s then .next (State.ofReset s.build s.env none) else seqStep s

/-- What a register write of the tick's second half does: nothing in a reset tick (70_reset_and_hazards.md R290). -/
def hostWrite (rst : Bool) : HostReg → Word → State → Result :=
  if rst then fun _ _ s => .next s else busWrite

theorem blockTick_eq (s : State) : blockTick s = andThen (blockHalf s) (busAccess (hostWrite (rstNow s))) := by
  unfold blockTick blockHalf hostWrite
  cases rstNow s <;> rfl

theorem blockHalf_samePorts {s u : State} (h : blockHalf s = .next u) : u.build = s.build ∧ u.env = s.env := by
  unfold blockHalf at h
  split at h
  · cases h
    exact ⟨rfl, rfl⟩
  · obtain ⟨p, _, hx⟩ := seqStep_cases h
    obtain ⟨hbuild, henv, _⟩ := exec_samePorts hx
    exact ⟨hbuild, henv⟩

/-- The sequencer's half reads nothing of the inputs but the response a call waits for. -/
theorem seqStep_withInputs {e : List TickIn} {n : Nat} {s : State}
    (hrsp : awaiting s = true → rspNow (withInputs e n s) = rspNow s) :
    seqStep (withInputs e n s) = andThen (seqStep s) fun t => .next (withInputs e n t) := by
  simp only [seqStep, decodePhase, show (withInputs e n s).seq = s.seq from rfl]
  cases hp : phaseOfCode s.seq with
  | none => rfl
  | some p => exact exec_phase_withInputs fun hreq hc => hrsp (by simp [awaiting, hp, hreq, hc])

/-- `seqStep_withInputs` for every tick; `m` is 0 in a reset tick. -/
theorem blockHalf_withInputs {e : List TickIn} {n : Nat} {s : State} (hrst : rstNow (withInputs e n s) = rstNow s)
    (hrsp : awaiting s = true → rspNow (withInputs e n s) = rspNow s) :
    ∃ m, blockHalf (withInputs e n s) = andThen (blockHalf s) fun t => .next (withInputs e m t) := by
  unfold blockHalf
  rw [hrst]
  cases rstNow s
  · exact ⟨n, seqStep_withInputs hrsp⟩
  · exact ⟨0, rfl⟩

theorem hostWrite_resultBlind (rst : Bool) (r : HostReg) (v : Word) : ResultBlind (hostWrite rst r v) := by
  cases rst
  · exact busWrite_resultBlind r v
  · exact fun _ _ _ => rfl

/-- The host's half depends on the inputs only through the host access of the tick. -/
theorem busAccess_withInputs {w : HostReg → Word → State → Result} (hw : ∀ r v, ResultBlind (w r v))
    {e : List TickIn} {n : Nat} {s : State} (hacc : accNow (withInputs e n s) = accNow s) :
    busAccess w (withInputs e n s) = andThen (busAccess w s) fun t => .next (withInputs e.tail n t) := by
  simp only [busAccess, hacc, show (withInputs e n s).build = s.build from rfl]
  cases accNow s with
  | none => rfl
  | some a =>
    cases a with
    | read addr size =>
      dsimp only
      cases target s.build addr size with
      | reg r => cases r <;> rfl
      | elsewhere => rfl
      | inadmissible => rfl
    | write addr size v =>
      dsimp only
      cases target s.build addr size with
      | reg r =>
        dsimp only
        rw [hw r v e n s, andThen_assoc, andThen_assoc]
        rfl
      | elsewhere => rfl
      | inadmissible => rfl

theorem busWrite_env {r : HostReg} {v : Word} {s t : State} (h : busWrite r v s = .next t) : t.env = s.env := by
  rcases busWrite_cases h with ⟨i, _, _, hx⟩ | ⟨e, _, _, rfl⟩ | ⟨_, rfl⟩
  · obtain ⟨_, henv, _⟩ := exec_samePorts hx
    exact henv
  · rfl
  · cases r
    case cfgWidth => simp only [writeReg]; split <;> rfl
    case cfgPins => simp only [writeReg]; split <;> rfl
    all_goals rfl

/-- A tick consumes its inputs (40_sequencer.md R120). -/
theorem blockTick_env {s t : State} (h : blockTick s = .next t) : t.env = s.env.tail := by
  rcases blockTick_cases h with ⟨_, rd, rfl⟩ | ⟨_, p, s1, _, hx, hb⟩
  · rfl
  · obtain ⟨_, henv, _⟩ := exec_samePorts hx
    rw [← henv]
    rcases busAccess_cases hb with ⟨rd, rfl⟩ | ⟨_, _, _, _, s2, _, _, hw, rfl⟩
    · rfl
    · exact congrArg List.tail (busWrite_env hw)

/-- Two ticks with the same reset, host access and later inputs, and the same response where a call waits for one, leave
the same block, whatever the count of abandoned requests. -/
theorem blockTick_withInputs {e : List TickIn} {n : Nat} {s : State} (hrst : rstNow (withInputs e n s) = rstNow s)
    (hacc : accNow (withInputs e n s) = accNow s) (htail : e.tail = s.env.tail)
    (hrsp : awaiting s = true → rspNow (withInputs e n s) = rspNow s) (k : Nat) :
    andThen (blockTick (withInputs e n s)) (fun t => .next (setStale k t)) =
      andThen (blockTick s) fun t => .next (setStale k t) := by
  obtain ⟨m, hm⟩ := blockHalf_withInputs hrst hrsp
  have hblock : blockTick (withInputs e n s) = andThen (blockTick s) fun t => .next (withInputs e.tail m t) := by
    rw [blockTick_eq, blockTick_eq, hrst, hm, andThen_assoc, andThen_assoc]
    cases hu : blockHalf s with
    | next u =>
      obtain ⟨_, henv⟩ := blockHalf_samePorts hu
      have hacc' : accNow (withInputs e m u) = accNow u := by
        simpa only [accNow, tickIn, withInputs, henv] using hacc
      exact busAccess_withInputs (hostWrite_resultBlind _) hacc'
    | fault f => rfl
    | refused r => rfl
  rw [hblock, andThen_assoc]
  cases hb : blockTick s with
  | next t =>
    have henv : t.env = e.tail := (blockTick_env hb).trans htail.symm
    simp only [andThen, setStale, withInputs, ← henv]
  | fault f => rfl
  | refused r => rfl

/-- `blockTick_withInputs` for the whole tick, when neither tick is refused for its response and both leave the same
count of abandoned requests. -/
theorem step_withInputs {e : List TickIn} {n : Nat} {s : State} (hrst : rstNow (withInputs e n s) = rstNow s)
    (hacc : accNow (withInputs e n s) = accNow s) (htail : e.tail = s.env.tail)
    (hrsp : awaiting s = true → rspNow (withInputs e n s) = rspNow s) (hs : spurious s = false)
    (hs' : spurious (withInputs e n s) = false) (hcount : staleAfter (withInputs e n s) = staleAfter s) :
    step (withInputs e n s) = step s := by
  rw [step_admitted hs', step_admitted hs, hcount]
  exact blockTick_withInputs hrst hacc htail hrsp _

/-- Without a response and a waiting call the count of abandoned requests stays (log 5). -/
theorem staleAfter_of_quiet {s : State} (hwait : awaiting s = false) (hrsp : rspNow s = none) :
    staleAfter s = s.stale := by
  simp [staleAfter, hwait, hrsp]

end Sys2Proof.Machine

/-! The host's access port (20_memory.md R60 to R67) and the late responses (R78). -/

namespace Sys2Proof.Machine

open Sys2Proof.Safety

/-! ### A late response -/

/-- `s` without the response of the tick, which one abandoned request fewer awaits. -/
def withoutResponse (s : State) : State :=
  withInputs ({ rst := rstNow s, rsp := none, acc := accNow s } :: s.env.tail) (s.stale - 1) s

/-- Settles O54: without the response the tick has the same reset, host access and later inputs, and no call waits; the
request that the response answers is counted off in advance. -/
theorem responseOutsideWaitIgnored : Obligations.ResponseOutsideWaitIgnored := by
  intro s hwait hrsp hstale
  obtain ⟨r, hr⟩ := Option.isSome_iff_exists.mp hrsp
  have hadmit : spurious s = false := by simp [spurious, Nat.ne_of_gt hstale]
  have hcount : staleAfter s = s.stale - 1 := by simp [staleAfter, hwait, hr]
  have hcount' : staleAfter (withoutResponse s) = s.stale - 1 := staleAfter_of_quiet hwait rfl
  have hadmit' : spurious (withoutResponse s) = false := spurious_of_no_response rfl
  have hresponse : awaiting s = true → rspNow (withoutResponse s) = rspNow s := by simp [hwait]
  have hsame : step (withoutResponse s) = step s :=
    step_withInputs (e := (withoutResponse s).env) rfl rfl rfl hresponse hadmit hadmit' (hcount'.trans hcount.symm)
  exact hsame.symm

/-! ### Where an access goes (20_memory.md R61, R63) -/

theorem target_eq_elsewhere {c : Config} {addr size : Nat} (h : c.sicBase + 32 ≤ addr ∨ addr + size ≤ c.sicBase) :
    target c addr size = .elsewhere :=
  if_pos h

theorem target_eq_inadmissible {c : Config} {addr size : Nat} (hlow : addr < c.sicBase + 32)
    (hhigh : c.sicBase < addr + size) (hbad : size ≠ 4 ∨ addr < c.sicBase ∨ addr % 4 ≠ c.sicBase % 4) :
    target c addr size = .inadmissible := by
  have hin : ¬ (c.sicBase + 32 ≤ addr ∨ addr + size ≤ c.sicBase) := by omega
  have hal : ¬ (size = 4 ∧ c.sicBase ≤ addr ∧ (addr - c.sicBase) % 4 = 0) := by omega
  rw [target, if_neg hin, if_neg hal]

/-- An access that selects a register is an aligned word access to the window. -/
theorem target_reg_inversion {c : Config} {addr size : Nat} {r : HostReg} (h : target c addr size = .reg r) :
    addr - c.sicBase < 32 ∧ (addr - c.sicBase) % 4 = 0 ∧ r = regAt (addr - c.sicBase) := by
  unfold target at h
  split at h
  · cases h
  · next hin =>
    split at h
    · next hal =>
      obtain ⟨_, _, h4⟩ := hal
      exact ⟨by omega, h4, (Target.reg.inj h).symm⟩
    · cases h

theorem busAccess_elsewhere {w : HostReg → Word → State → Result} {s : State} {addr size : Nat}
    (hacc : accNow s = some (.read addr size) ∨ ∃ v, accNow s = some (.write addr size v))
    (ht : target s.build addr size = .elsewhere) : busAccess w s = .next (endTick none s) := by
  rcases hacc with h | ⟨v, h⟩ <;> simp only [busAccess, h, ht]

theorem busAccess_inadmissible {w : HostReg → Word → State → Result} {s : State} {addr size : Nat}
    (hacc : accNow s = some (.read addr size) ∨ ∃ v, accNow s = some (.write addr size v))
    (ht : target s.build addr size = .inadmissible) : busAccess w s = .refused .badAccess := by
  rcases hacc with h | ⟨v, h⟩ <;> simp only [busAccess, h, ht]

/-- Settles O11: the phase has a next state, in which the access is refused. -/
theorem inadmissibleAccessRefused : Obligations.InadmissibleAccessRefused := by
  intro s i addr size hrst hi hlow hhigh hbad hacc
  cases hs : spurious s
  · obtain ⟨s1, hx⟩ := phase_next s hi
    obtain ⟨hbuild, _⟩ := exec_samePorts hx
    rw [← accNow_congr (exec_samePorts hx)] at hacc
    rw [← hbuild] at hlow hhigh hbad
    rw [step_of hs hrst hi hx, busAccess_inadmissible hacc (target_eq_inadmissible hlow hhigh hbad)]
    rfl
  · exact step_spurious hs

/-- Settles O12: after the phase the tick only ends. -/
theorem accessOutsideWindowIgnored : Obligations.AccessOutsideWindowIgnored := by
  intro s s1 i addr size hs hrst hi hx hout hacc
  obtain ⟨hbuild, henv, _⟩ := exec_samePorts hx
  rw [← accNow_congr (exec_samePorts hx)] at hacc
  rw [← hbuild] at hout
  rw [step_of hs hrst hi hx, busAccess_elsewhere hacc (target_eq_elsewhere hout), ← henv]
  rfl

/-! ### Reads (20_memory.md R64) -/

/-- What a read can answer: nothing outside the window, else the register's value. -/
theorem busAccess_read {w : HostReg → Word → State → Result} {s t : State} {addr size : Nat}
    (hacc : accNow s = some (.read addr size)) (h : busAccess w s = .next t) :
    ∃ rd, t = endTick rd s ∧
      (target s.build addr size = .elsewhere ∧ rd = none ∨
        ∃ r, target s.build addr size = .reg r ∧ rd = some (readReg r s)) := by
  simp only [busAccess, hacc] at h
  split at h <;> cases h
  · next ht => exact ⟨none, rfl, .inl ⟨ht, rfl⟩⟩
  · next r ht => exact ⟨_, rfl, .inr ⟨r, ht, rfl⟩⟩

/-- A tick with a read is the tick's first half and the answer. -/
theorem step_read {s t : State} {addr size : Nat} (hacc : accNow s = some (.read addr size)) (h : step s = .next t) :
    ∃ u rd, blockHalf s = .next u ∧ t = setStale (staleAfter s) (endTick rd u) ∧
      (target s.build addr size = .elsewhere ∧ rd = none ∨
        ∃ r, target s.build addr size = .reg r ∧ rd = some (readReg r u)) := by
  obtain ⟨_, b, hb, rfl⟩ := step_next h
  rw [blockTick_eq] at hb
  obtain ⟨u, hu, hbus⟩ := andThen_next hb
  obtain ⟨hbuild, henv⟩ := blockHalf_samePorts hu
  have haccu : accNow u = some (.read addr size) := by
    simpa only [accNow, tickIn, henv] using hacc
  obtain ⟨rd, rfl, hrd⟩ := busAccess_read haccu hbus
  rw [hbuild] at hrd
  exact ⟨u, rd, hu, rfl, hrd⟩

/-- A tick with a read leaves the build parameters and answers with the register as the tick leaves it. -/
theorem read_answer {s t : State} {addr size : Nat} (hacc : accNow s = some (.read addr size)) (h : step s = .next t) :
    t.build = s.build ∧
      t.rdata = if target s.build addr size = .elsewhere then none
        else some (BitVec.ofNat 32 (readTable (addr - s.build.sicBase) t)) := by
  obtain ⟨u, rd, hu, rfl, hrd⟩ := step_read hacc h
  obtain ⟨hbuild, _⟩ := blockHalf_samePorts hu
  refine ⟨hbuild, ?_⟩
  rcases hrd with ⟨ht, rfl⟩ | ⟨r, ht, rfl⟩
  · rw [if_pos ht]
    rfl
  · obtain ⟨hoff, h4, rfl⟩ := target_reg_inversion ht
    have hne : target s.build addr size ≠ .elsewhere := by simp [ht]
    rw [if_neg hne, readReg_eq hoff h4]
    rfl

/-- `s` without the host access of the tick. -/
def withoutAccess (s : State) : State :=
  withInputs ({ rst := rstNow s, rsp := rspNow s, acc := none } :: s.env.tail) s.stale s

/-- The tick without the read has the same first half and leaves the same block, with nothing answered. -/
theorem step_without_read {s t : State} {addr size : Nat} (hacc : accNow s = some (.read addr size))
    (h : step s = .next t) : step (withoutAccess s) = .next { t with rdata := none } := by
  obtain ⟨hs, _⟩ := step_next h
  obtain ⟨u, rd, hu, rfl, _⟩ := step_read hacc h
  obtain ⟨_, henv⟩ := blockHalf_samePorts hu
  have hadmit : spurious (withoutAccess s) = false := hs
  obtain ⟨m, hm⟩ : ∃ m, blockHalf (withoutAccess s) = .next (withInputs (withoutAccess s).env m u) := by
    obtain ⟨m, hm⟩ := blockHalf_withInputs (s := s) (e := (withoutAccess s).env) (n := s.stale) rfl fun _ => rfl
    rw [hu] at hm
    exact ⟨m, hm⟩
  rw [step_admitted hadmit, blockTick_eq, hm]
  simp only [setStale, endTick, henv]
  rfl

/-- Settles O7: the read only answers; and each answer is the register as its tick leaves it. -/
theorem hostReadHasNoSideEffect : Obligations.HostReadHasNoSideEffect := by
  intro s t addr size hacc hstep
  refine ⟨?_, fun u _ _ hacc2 hstep2 hsame => ?_⟩
  · exact step_without_read hacc hstep
  · obtain ⟨hbuild, hfirst⟩ := read_answer hacc hstep
    obtain ⟨_, hsecond⟩ := read_answer hacc2 hstep2
    rw [hfirst, hsecond, hbuild, hsame]

end Sys2Proof.Machine

/-! The two instruction spaces (30_encoding.md): the fields and reserved bits of a command word, the unused phase codes,
and the decoder and the encoder as inverses. -/

namespace Sys2Proof.Machine

/-! ### The fields of a command word (30_encoding.md R90 to R93) -/

/-- The word with the given OP and, for ACQ_BIT, the given IDX, and no other bit: `encode(m, idx)` of R109. -/
def commandWord (op : BitVec 4) (idx : BitVec 7) : Word :=
  op.setWidth 32 ||| (if op = 3#4 then idx.setWidth 32 <<< 8 else 0#32)

theorem opField_toNat (w : Word) : (opField w).toNat = w.toNat % 16 := by
  simp [opField, BitVec.extractLsb'_toNat]

theorem idxField_toNat (w : Word) : (idxField w).toNat = w.toNat / 256 % 64 := by
  simp [idxField, BitVec.extractLsb'_toNat, Nat.shiftRight_eq_div_pow]
  omega

theorem idxField_lt (w : Word) : (idxField w).toNat < 64 := by
  rw [idxField_toNat]
  omega

theorem opField_getLsbD (w : Word) (i : Nat) : (opField w).getLsbD i = (decide (i < 4) && w.getLsbD i) := by
  simp [opField]

theorem idxField_getLsbD (w : Word) (i : Nat) : (idxField w).getLsbD i = (decide (i < 6) && w.getLsbD (8 + i)) := by
  by_cases hi : i < 6
  · have : i < 7 := by omega
    simp [idxField, hi, this]
  · simp [idxField, hi]

theorem commandWord_getLsbD (op : BitVec 4) (idx : BitVec 7) {i : Nat} (hi : i < 32) :
    (commandWord op idx).getLsbD i = (op.getLsbD i || decide (op = 3#4 ∧ 8 ≤ i) && idx.getLsbD (i - 8)) := by
  unfold commandWord
  split
  next hop =>
    have hlt : i - 8 < 32 := by omega
    simp only [BitVec.getLsbD_or, BitVec.getLsbD_setWidth, BitVec.getLsbD_shiftLeft, hi, hlt, hop]
    by_cases h8 : i < 8
    · simp [h8]
    · simp [h8, Nat.le_of_not_lt h8]
  next hop => simp [hop, hi]

/-- An IDX below 64 has its six low bits only (30_encoding.md R92). -/
theorem idx_getLsbD_of_ge {idx : BitVec 7} (h : idx.toNat < 64) {i : Nat} (hi : 6 ≤ i) : idx.getLsbD i = false :=
  Nat.testBit_lt_two_pow (lt_of_lt_of_le h (Nat.pow_le_pow_right (show 0 < 2 by decide) hi))

/-- The reserved bits are those of neither OP nor, for ACQ_BIT, IDX. -/
theorem reservedMask_getLsbD (op : BitVec 4) {i : Nat} (hi : i < 32) :
    (reservedMask op).getLsbD i = decide (4 ≤ i ∧ (op = 3#4 → ¬ (8 ≤ i ∧ i < 14))) := by
  unfold reservedMask
  split
  next h => simp only [h]; revert i; decide
  next h => simp only [h]; revert i; decide

/-- A word without reserved bits holds its fields and nothing else. -/
theorem commandWord_of_reserved_clear {w : Word} (h : w &&& reservedMask (opField w) = 0#32) :
    commandWord (opField w) (idxField w) = w := by
  apply BitVec.eq_of_getLsbD_eq
  intro i hi
  have hbit : (w.getLsbD i && (reservedMask (opField w)).getLsbD i) = false := by
    rw [← BitVec.getLsbD_and, h, BitVec.getLsbD_zero]
  rw [reservedMask_getLsbD _ hi] at hbit
  rw [commandWord_getLsbD _ _ hi, opField_getLsbD, idxField_getLsbD]
  by_cases h4 : i < 4
  · have h8 : ¬ 8 ≤ i := by omega
    simp [h4, h8]
  · by_cases hidx : opField w = 3#4 ∧ 8 ≤ i ∧ i < 14
    · obtain ⟨hop, h8, h14⟩ := hidx
      have h6 : i - 8 < 6 := by omega
      simp [h4, hop, h8, h6]
    · have hclear : w.getLsbD i = false := by
        have hreserved : 4 ≤ i ∧ (opField w = 3#4 → ¬ (8 ≤ i ∧ i < 14)) := ⟨by omega, fun hop hr => hidx ⟨hop, hr⟩⟩
        rwa [decide_eq_true hreserved, Bool.and_true] at hbit
      rw [hclear]
      by_cases h8 : 8 ≤ i
      · have hi8 : 8 + (i - 8) = i := by omega
        simp [h4, hi8, hclear]
      · simp [h4, h8]

theorem opField_commandWord (op : BitVec 4) (idx : BitVec 7) : opField (commandWord op idx) = op := by
  apply BitVec.eq_of_getLsbD_eq
  intro i hi
  have h8 : ¬ 8 ≤ i := by omega
  rw [opField_getLsbD, commandWord_getLsbD _ _ (by omega)]
  simp [hi, h8]

theorem idxField_commandWord {idx : BitVec 7} (h : idx.toNat < 64) : idxField (commandWord 3#4 idx) = idx := by
  apply BitVec.eq_of_getLsbD_eq
  intro i hi
  rw [idxField_getLsbD, commandWord_getLsbD _ _ (by omega), BitVec.getLsbD_of_ge (3#4) _ (by omega)]
  by_cases h6 : i < 6
  · simp [h6]
  · rw [idx_getLsbD_of_ge h (i := i) (by omega)]
    simp [h6]

/-- The word of a command with a six-bit IDX has no reserved bit. -/
theorem commandWord_reserved_clear {op : BitVec 4} {idx : BitVec 7} (h : idx.toNat < 64) :
    commandWord op idx &&& reservedMask op = 0#32 := by
  apply BitVec.eq_of_getLsbD_eq
  intro i hi
  rw [BitVec.getLsbD_and, commandWord_getLsbD _ _ hi, reservedMask_getLsbD _ hi, BitVec.getLsbD_zero]
  by_cases h4 : i < 4
  · have : ¬ 4 ≤ i := by omega
    simp [this]
  · have hop : op.getLsbD i = false := BitVec.getLsbD_of_ge _ _ (by omega)
    by_cases hfield : op = 3#4 ∧ 8 ≤ i
    · by_cases h14 : i < 14
      · simp [hfield, h14]
      · rw [idx_getLsbD_of_ge h (by omega), hop]
        simp
    · simp [hop, hfield]

/-! ### The decoder of command words (30_encoding.md R91, R94) -/

/-- The decoder's two checks: OP is assigned, and no reserved bit is set. -/
theorem decodeCommand_eq_ok_iff {w : Word} {i : Instr} :
    decodeCommand w = .ok i ↔
      commandOf (opField w) (idxField w) = some i ∧ w &&& reservedMask (opField w) = 0#32 := by
  unfold decodeCommand
  split
  next h => simp [h]
  next j h => by_cases hr : w &&& reservedMask (opField w) = 0#32 <;> simp [h, hr]

theorem decodeCommand_eq_illegalOp {w : Word} (h : commandOf (opField w) (idxField w) = none) :
    decodeCommand w = .error .illegalOp := by
  simp [decodeCommand, h]

theorem decodeCommand_eq_badEncoding {w : Word} (h : commandOf (opField w) (idxField w) ≠ none)
    (hr : w &&& reservedMask (opField w) ≠ 0#32) : decodeCommand w = .error .badEncoding := by
  obtain ⟨i, hi⟩ := Option.ne_none_iff_exists'.mp h
  simp [decodeCommand, hi, hr]

/-- The opcode column of R91. -/
theorem commandOf_cases {op : BitVec 4} {idx : BitVec 7} {i : Instr} (h : commandOf op idx = some i) :
    op = 1#4 ∧ i = .init ∨ op = 2#4 ∧ i = .acqAll ∨ op = 3#4 ∧ i = .acqBit idx ∨ op = 4#4 ∧ i = .acqLoop ∨
    op = 5#4 ∧ i = .cancel ∨ op = 6#4 ∧ i = .describe ∨ op = 7#4 ∧ i = .release := by
  unfold commandOf at h
  split at h
  case h_8 => cases h
  all_goals
    rename_i hop
    cases h
    simp [BitVec.toNat_eq, hop]

theorem commandOf_eq_none_iff {op : BitVec 4} {idx : BitVec 7} :
    commandOf op idx = none ↔ op.toNat = 0 ∨ 8 ≤ op.toNat := by
  unfold commandOf
  split
  case h_8 => grind
  all_goals simp only [reduceCtorEq, false_iff]; omega

/-- A command with a six-bit IDX is well-formed, and its encoding is the word of its OP and IDX. -/
theorem commandOf_encode {op : BitVec 4} {idx : BitVec 7} {i : Instr} (hidx : idx.toNat < 64)
    (h : commandOf op idx = some i) : i.wf = true ∧ encode i = .cmd (commandWord op idx) := by
  rcases commandOf_cases h with ⟨rfl, rfl⟩ | ⟨rfl, rfl⟩ | ⟨rfl, rfl⟩ | ⟨rfl, rfl⟩ | ⟨rfl, rfl⟩ | ⟨rfl, rfl⟩ | ⟨rfl, rfl⟩
  case inr.inr.inl => exact ⟨decide_eq_true hidx, rfl⟩
  all_goals exact ⟨rfl, by simp [encode, commandWord]⟩

/-- The word of ACQ_BIT decodes to it, for every IDX that the field holds. -/
theorem decodeCommand_acqBit {idx : BitVec 7} (h : idx.toNat < 64) :
    decodeCommand (commandWord 3#4 idx) = .ok (.acqBit idx) := by
  rw [decodeCommand_eq_ok_iff, opField_commandWord, idxField_commandWord h]
  exact ⟨rfl, commandWord_reserved_clear h⟩

/-! ### The decoder of phase codes (30_encoding.md R100, R101) -/

theorem decode_phaseCode (p : Phase) : decode (.uop (phaseCode p)) = .ok (phaseInstr p) := by
  simp [decode, decodePhase]

/-- The unused codes stand for no phase. -/
theorem phaseOfCode_eq_none_iff {c : BitVec 5} :
    phaseOfCode c = none ↔ c = 0x06#5 ∨ c = 0x07#5 ∨ 0x14 ≤ c.toNat := by
  revert c
  decide

theorem decodePhase_eq_ok {c : BitVec 5} {i : Instr} (h : decodePhase c = .ok i) :
    ∃ p, phaseCode p = c ∧ phaseInstr p = i := by
  unfold decodePhase at h
  split at h
  next p hp => cases h; exact ⟨p, (phaseCode_of_phaseOfCode hp).symm, rfl⟩
  next => cases h

theorem encode_phaseInstr (p : Phase) : (phaseInstr p).wf = true ∧ encode (phaseInstr p) = .uop (phaseCode p) := by
  cases p <;> exact ⟨rfl, rfl⟩

/-! ### The decoder and the encoder are inverse -/

/-- The split is on the operand: ACQ_BIT alone has one, and every other encoding is a single word or code. -/
theorem decode_encode {i : Instr} (h : i.wf = true) : decode (encode i) = .ok i := by
  cases i
  case acqBit idx => exact decodeCommand_acqBit (of_decide_eq_true h)
  all_goals rfl

theorem encode_of_decode {e : Encoded} {i : Instr} (h : decode e = .ok i) : i.wf = true ∧ encode i = e := by
  cases e with
  | cmd w =>
    obtain ⟨hcommand, hclear⟩ := decodeCommand_eq_ok_iff.mp h
    rw [← commandWord_of_reserved_clear hclear]
    exact commandOf_encode (idxField_lt w) hcommand
  | uop c =>
    obtain ⟨p, rfl, rfl⟩ := decodePhase_eq_ok h
    exact encode_phaseInstr p

/-- Settles O1: command words by their fields and reserved bits, phase codes by the table of R100. -/
theorem decodeInvertsEncode : Obligations.DecodeInvertsEncode :=
  ⟨fun _ => decode_encode, fun _ _ => encode_of_decode⟩

/-- Settles O3: R111's words are the encoder's, so the decoder reads each of them back. -/
theorem commandWordsOfTheSpec : Obligations.CommandWordsOfTheSpec := by
  refine ⟨rfl, rfl, rfl, rfl, rfl, rfl, decode_encode (i := .init) rfl, decode_encode (i := .acqAll) rfl,
    decode_encode (i := .acqBit 0#7) rfl, decode_encode (i := .acqBit 7#7) rfl, decode_encode (i := .acqBit 63#7) rfl,
    decode_encode (i := .acqLoop) rfl, decode_encode (i := .cancel) rfl, decode_encode (i := .describe) rfl,
    decode_encode (i := .release) rfl, fun idx _ => ?_⟩
  have hshift : idx.setWidth 32 <<< 8 = BitVec.ofNat 32 (256 * idx.toNat) := by
    apply BitVec.eq_of_toNat_eq
    simp [Nat.shiftLeft_eq]
    omega
  rw [← hshift]
  rfl

/-- Settles O4: every code of the table is its phase's. -/
theorem phaseCodesOfTheSpec : Obligations.PhaseCodesOfTheSpec :=
  ⟨decode_phaseCode .idle, decode_phaseCode .iCfgSdata, decode_phaseCode .iCfgLoad, decode_phaseCode .iCfgClk,
    decode_phaseCode .iIdleLoad, decode_phaseCode .iIdleClk, decode_phaseCode .ldFall, decode_phaseCode .ldLowWait,
    decode_phaseCode .ldRise, decode_phaseCode .ldHighWait, decode_phaseCode .smp, decode_phaseCode .ckRise,
    decode_phaseCode .ckHighWait, decode_phaseCode .ckFall, decode_phaseCode .ckLowWait, decode_phaseCode .capture,
    decode_phaseCode .cadenceWait, decode_phaseCode .rel⟩

/-! ### A CMD write (30_encoding.md R94, R95) -/

/-- A CMD write of a command word runs the command (40_sequencer.md R122). -/
theorem busWrite_command {v : Word} {i : Instr} (s : State) (hi : commandOf (opField v) (idxField v) = some i)
    (hr : v &&& reservedMask (opField v) = 0#32) : busWrite .cmd v s = exec i s := by
  simp [busWrite, acceptWord, decodeCommand_eq_ok_iff.mpr ⟨hi, hr⟩]

/-- A CMD write of any other word only records why it is none (40_sequencer.md R122). -/
theorem busWrite_rejected {v : Word} {e : DecodeError} (s : State) (h : decodeCommand v = .error e) :
    busWrite .cmd v s = .next { s with rej := decodeRej e } := by
  simp [busWrite, acceptWord, h, reject]

/-- The reserved bits of a word by the value of its OP. -/
theorem reservedMask_opField (v : Word) :
    reservedMask (opField v) = if v.toNat % 16 = 3 then 0xFFFFC0F0#32 else 0xFFFFFFF0#32 := by
  simp [reservedMask, BitVec.toNat_eq, opField_toNat]

/-- Settles O2: the two checks of the decoder, at the fields as numbers. -/
theorem commandWordDecoded : Obligations.CommandWordDecoded := by
  intro v s op idx hop hidx reserved
  have hreserved : reserved = v &&& reservedMask (opField v) := by
    rw [reservedMask_opField, ← hop]
  have hfield : BitVec.ofNat 7 idx = idxField v := by
    rw [hidx, ← idxField_toNat, BitVec.ofNat_toNat, BitVec.setWidth_eq]
  rw [← opField_toNat] at hop
  rw [hreserved, hfield, hop]
  refine ⟨fun hillegal => ?_, fun ⟨hlow, hhigh, hbits⟩ => ?_, ?_⟩
  · exact busWrite_rejected s (decodeCommand_eq_illegalOp (commandOf_eq_none_iff.mpr hillegal))
  · have hassigned : commandOf (opField v) (idxField v) ≠ none := by
      rw [ne_eq, commandOf_eq_none_iff]
      omega
    exact busWrite_rejected s (decodeCommand_eq_badEncoding hassigned hbits)
  · refine ⟨?_, ?_, ?_, ?_, ?_, ?_, ?_⟩
    all_goals
      rintro ⟨hcode, hclear⟩
      exact busWrite_command s (by simp only [commandOf, hcode]) hclear

/-! ### The unused phase codes (30_encoding.md R101) -/

/-- A tick without reset that meets an unused code is refused: first for a response that answers no request (log 23),
else for the code. -/
theorem step_of_unused {s : State} (hrst : rstNow s = false) (h : phaseOfCode s.seq = none) :
    step s = .refused (if spurious s then .spuriousResponse else .unusedPhase s.seq) := by
  cases hs : spurious s with
  | true => rw [step_spurious hs]; rfl
  | false =>
    have hseq : seqStep s = .refused (.unusedPhase s.seq) := by simp [seqStep, decodePhase, h]
    rw [step_admitted hs, blockTick, hrst, hseq]
    rfl

/-- Settles O5: the invariant holds SEQ at the code of a phase, and no unused code is one. -/
theorem unusedPhaseCodesRefused : Obligations.UnusedPhaseCodesRefused := by
  refine ⟨fun t ht => ?_, fun s hrst hunused => step_of_unused hrst (phaseOfCode_eq_none_iff.mpr hunused)⟩
  obtain ⟨p, hp, _⟩ := (reachable_machineInv ht).phase
  have hused : ¬ (t.seq = 0x06#5 ∨ t.seq = 0x07#5 ∨ 0x14 ≤ t.seq.toNat) := fun hunused => by
    rw [phaseOfCode_eq_none_iff.mpr hunused] at hp
    cases hp
  exact ⟨by omega, fun h6 => hused (.inl h6), fun h7 => hused (.inr (.inl h7))⟩

end Sys2Proof.Machine

/-! The host's half of a tick, access by access, and what a quiet tick leaves (40_sequencer.md R120, R127). -/

namespace Sys2Proof.Machine

open Sys2Proof.Safety

/-! ### The host's half, by its access -/

theorem busAccess_none {w : HostReg → Word → State → Result} {s : State} (hacc : accNow s = none) :
    busAccess w s = .next (endTick none s) := by
  simp only [busAccess, hacc]

/-- A read of the window answers from the register table (10_state.md R21). -/
theorem busAccess_readTable {w : HostReg → Word → State → Result} {s : State} {off : Nat} (hoff : off < 32)
    (h4 : off % 4 = 0) (hacc : accNow s = some (.read (s.build.sicBase + off) 4)) :
    busAccess w s = .next (endTick (some (BitVec.ofNat 32 (readTable off s))) s) := by
  simp only [busAccess, hacc, target_reg hoff h4, readReg_eq hoff h4]

/-- CMD stands at the base of the window (20_memory.md R61). -/
theorem busAccess_cmd {w : HostReg → Word → State → Result} {s : State} {v : Word}
    (hacc : accNow s = some (.write s.build.sicBase 4 v)) :
    busAccess w s = andThen (w .cmd v s) fun t => .next (endTick none t) := by
  have htarget : target s.build s.build.sicBase 4 = .reg .cmd := target_reg (off := 0) (by decide) (by decide)
  simp only [busAccess, hacc, htarget]

/-- Settles O6: after the phase, each access does what the host's half of the tick does in the state the phase left. -/
theorem stepRunsPhaseThenHostAccess : Obligations.StepRunsPhaseThenHostAccess := by
  intro s s1 i hs hr hi hx
  obtain ⟨hbuild, henv, _⟩ := exec_samePorts hx
  have hstep := step_of hs hr hi hx
  rw [← accNow_congr (exec_samePorts hx), ← hbuild, ← henv]
  refine ⟨fun hacc => ?_, fun off hoff h4 hacc => ?_, fun v j hacc hj => ?_,
    fun v hacc hj => ?_, fun v hacc hj => ?_⟩
  · rw [hstep, busAccess_none hacc]
    rfl
  · rw [hstep, busAccess_readTable hoff h4 hacc]
    rfl
  · obtain ⟨hop, hclear⟩ := decodeCommand_eq_ok_iff.mp hj
    rw [hstep, busAccess_cmd hacc, busWrite_command s1 hop hclear]
    refine ⟨fun s2 hx2 => ?_, fun r hrefused => ?_⟩
    · obtain ⟨_, henv2, _⟩ := exec_samePorts hx2
      rw [hx2, ← henv2]
      rfl
    · rw [hrefused]
      rfl
  · rw [hstep, busAccess_cmd hacc, busWrite_rejected s1 hj]
    rfl
  · rw [hstep, busAccess_cmd hacc, busWrite_rejected s1 hj]
    rfl

/-- Settles O24: the phase changes nothing, and without an access the tick only ends. -/
theorem idleChangesNothing : Obligations.IdleChangesNothing := by
  refine fun s => ⟨rfl, fun hseq hs hr hacc => ?_⟩
  have hi : decode (.uop s.seq) = .ok .idle := by rw [hseq]; rfl
  obtain ⟨hquiet, _⟩ := stepRunsPhaseThenHostAccess s s .idle hs hr hi rfl
  exact hquiet hacc

end Sys2Proof.Machine

/-! The request port and the calls: which phases present a request, how a call phase runs, and what it adds to TRACE
(30_encoding.md R100, 40_sequencer.md R128, R133, R134). -/

namespace Sys2Proof.Machine

open Sys2Proof.Safety

/-! ### The request of the phase that SEQ holds -/

/-- The request of the phase that SEQ holds, none for a phase without one and for an unused code. -/
def seqRequest (s : State) : Option PinReq := (phaseOfCode s.seq).bind fun p => phaseRequest p s

theorem seqRequest_eq {s : State} {p : Phase} (hp : phaseOfCode s.seq = some p) : seqRequest s = phaseRequest p s := by
  simp [seqRequest, hp]

/-- The block waits for a response exactly in the WAIT sub-state of a call phase (20_memory.md R77). -/
theorem awaiting_iff (s : State) : awaiting s = true ↔ (∃ q, seqRequest s = some q) ∧ s.callst = .wait := by
  unfold awaiting seqRequest
  cases phaseOfCode s.seq <;> simp [Option.isSome_iff_exists]

theorem requestNow_of_wait {s : State} (h : s.callst = .wait) : requestNow s = none := by
  simp [requestNow, h]

theorem requestNow_of_issue {s : State} (hr : rstNow s = false) (h : s.callst = .issue) :
    requestNow s = seqRequest s := by
  unfold requestNow seqRequest
  rw [hr, h]
  cases phaseOfCode s.seq <;> rfl

theorem requestNow_of_none {s : State} (hr : rstNow s = false) (h : seqRequest s = none) : requestNow s = none := by
  cases hc : s.callst with
  | issue => rw [requestNow_of_issue hr hc, h]
  | wait => exact requestNow_of_wait hc

theorem pinPort_of_request {s : State} {q : PinReq} (h : requestNow s = some q) :
    pinPort s = { valid := true, op := pinOpCode q.op, pin := q.pin, arg := q.arg } := by
  simp only [pinPort, h]

theorem pinPort_of_none {s : State} (h : requestNow s = none) :
    pinPort s = { valid := false, op := 0#3, pin := 0#8, arg := 0#2 } := by
  simp only [pinPort, h]

theorem pinPort_valid_iff (s : State) : (pinPort s).valid = true ↔ ∃ q, requestNow s = some q := by
  cases h : requestNow s with
  | none => simp [pinPort_of_none h]
  | some q => simp [pinPort_of_request h]

/-- The port's fields of a request (30_encoding.md R106). -/
def reqFields (q : PinReq) : BitVec 3 × PinId × BitVec 2 := (pinOpCode q.op, q.pin, q.arg)

theorem requestTable_phaseCode (p : Phase) (s : State) :
    requestTable (phaseCode p).toNat s = (phaseRequest p s).map reqFields := by
  cases p <;> rfl

theorem requestTable_unused {c : BitVec 5} (h : phaseOfCode c = none) (s : State) : requestTable c.toNat s = none := by
  rcases phaseOfCode_eq_none_iff.mp h with rfl | rfl | hc
  · rfl
  · rfl
  · unfold requestTable
    split
    case h_12 => rfl
    all_goals omega

/-- The request columns of R100 are the requests of the phases. -/
theorem requestTable_seq (s : State) : requestTable s.seq.toNat s = (seqRequest s).map reqFields := by
  cases hp : phaseOfCode s.seq with
  | none => simp [requestTable_unused hp, seqRequest, hp]
  | some p => rw [seqRequest_eq hp, ← requestTable_phaseCode, ← phaseCode_of_phaseOfCode hp]

theorem seqRequest_of_requestTable {s : State} {op : BitVec 3} {pin : PinId} {arg : BitVec 2}
    (h : requestTable s.seq.toNat s = some (op, pin, arg)) :
    ∃ q, seqRequest s = some q ∧ pinOpCode q.op = op ∧ q.pin = pin ∧ q.arg = arg := by
  rw [requestTable_seq, Option.map_eq_some_iff] at h
  obtain ⟨q, hq, hfields⟩ := h
  cases hfields
  exact ⟨q, hq, rfl, rfl, rfl⟩

theorem seqRequest_eq_none_iff (s : State) : seqRequest s = none ↔ requestTable s.seq.toNat s = none := by
  rw [requestTable_seq, Option.map_eq_none_iff]

/-- Settles O15: the port carries the request of the phase in its ISSUE tick, and nothing otherwise. -/
theorem requestOutputs : Obligations.RequestOutputs := by
  refine fun s hr => ⟨fun op pin arg hc htable => ?_, fun hquiet => pinPort_of_none ?_⟩
  · obtain ⟨q, hq, rfl, rfl, rfl⟩ := seqRequest_of_requestTable htable
    exact pinPort_of_request ((requestNow_of_issue hr hc).trans hq)
  · rcases hquiet with hc | htable
    · exact requestNow_of_wait hc
    · exact requestNow_of_none hr ((seqRequest_eq_none_iff s).mpr htable)

/-! ### How a call phase runs (40_sequencer.md R128) -/

/-- What a call phase does after its response: the next sub-state is ISSUE, and TRACE is left. -/
def EndsCall (f : State → State) : Prop := ∀ s, (f s).callst = .issue ∧ (f s).trace = s.trace

theorem goto_endsCall (p : Phase) : EndsCall (goto p) := fun _ => ⟨rfl, rfl⟩

theorem fatal_endsCall (k : FatalKind) (op : PinOp) : EndsCall (fatal k op) := fun _ => ⟨rfl, rfl⟩

theorem relDone_endsCall : EndsCall relDone := by
  intro s
  rw [relDone_eq]
  exact ⟨rfl, rfl⟩

/-- A phase with a request runs the call primitive on it. -/
theorem exec_call {p : Phase} {s : State} {q : PinReq} (hq : phaseRequest p s = some q) :
    ∃ f g, exec (phaseInstr p) s = .next (callStep q f g s) ∧ (∀ l, EndsCall (f l)) ∧ EndsCall g := by
  cases p <;> cases hq
  case iIdleClk => exact ⟨_, _, rfl, fun _ _ => ⟨rfl, rfl⟩, fatal_endsCall _ _⟩
  case smp => exact ⟨_, _, rfl, fun _ _ => ⟨rfl, rfl⟩, fatal_endsCall _ _⟩
  case rel => exact ⟨_, _, rfl, fun _ => relDone_endsCall, fun s => relDone_endsCall { s with relFault := true }⟩
  all_goals exact ⟨_, _, rfl, fun _ => goto_endsCall _, fatal_endsCall _ _⟩

theorem exec_call_issue {p : Phase} {s : State} {q : PinReq} (hq : phaseRequest p s = some q) (hc : s.callst = .issue) :
    exec (phaseInstr p) s = .next { s with callst := .wait } := by
  obtain ⟨f, g, hx, _⟩ := exec_call hq
  rw [hx, callStep_issue hc]

theorem exec_call_hold {p : Phase} {s : State} {q : PinReq} (hq : phaseRequest p s = some q) (hc : s.callst = .wait)
    (hr : rspNow s = none) : exec (phaseInstr p) s = .next s := by
  obtain ⟨f, g, hx, _⟩ := exec_call hq
  rw [hx, callStep_hold hc hr]

/-- The response ends the call and enters it in TRACE (10_state.md R49). -/
theorem exec_call_answered {p : Phase} {s : State} {q : PinReq} {r : PinRsp} (hq : phaseRequest p s = some q)
    (hc : s.callst = .wait) (hr : rspNow s = some r) :
    ∃ t, exec (phaseInstr p) s = .next t ∧ t.callst = .issue ∧
      t.trace = s.trace ++ [{ req := q, fault := r.fault, level := r.level }] := by
  obtain ⟨f, g, hx, hf, hg⟩ := exec_call hq
  rcases r with ⟨_ | _, l⟩
  · rw [callStep_ok hc hr] at hx
    exact ⟨_, hx, hf l _⟩
  · rw [callStep_fault hc hr] at hx
    exact ⟨_, hx, hg _⟩

/-- The call instructions are those of the phases with a request. -/
theorem callInstrs_phase {i : Instr} (h : i ∈ callInstrs) (s : State) :
    ∃ p q, phaseInstr p = i ∧ phaseRequest p s = some q := by
  simp only [callInstrs, List.mem_cons, List.not_mem_nil, or_false] at h
  rcases h with rfl | rfl | rfl | rfl | rfl | rfl | rfl | rfl | rfl | rfl | rfl
  · exact ⟨.iCfgSdata, _, rfl, rfl⟩
  · exact ⟨.iCfgLoad, _, rfl, rfl⟩
  · exact ⟨.iCfgClk, _, rfl, rfl⟩
  · exact ⟨.iIdleLoad, _, rfl, rfl⟩
  · exact ⟨.iIdleClk, _, rfl, rfl⟩
  · exact ⟨.ldFall, _, rfl, rfl⟩
  · exact ⟨.ldRise, _, rfl, rfl⟩
  · exact ⟨.smp, _, rfl, rfl⟩
  · exact ⟨.ckRise, _, rfl, rfl⟩
  · exact ⟨.ckFall, _, rfl, rfl⟩
  · exact ⟨.rel, _, rfl, rfl⟩

/-- Settles O25: the call primitive, at the request of each call phase. -/
theorem callPhasesIssueThenHold : Obligations.CallPhasesIssueThenHold := by
  intro s i hi
  obtain ⟨p, q, rfl, hq⟩ := callInstrs_phase hi s
  exact ⟨exec_call_issue hq, exec_call_hold hq⟩

end Sys2Proof.Machine

/-! Where SEQ and TRACE can go in one tick (40_sequencer.md R134, R136). -/

namespace Sys2Proof.Machine

open Sys2Proof.Safety

/-! ### The two halves of a tick -/

/-- A tick without reset is its phase and then its host access. -/
theorem step_halves {s t : State} (hr : rstNow s = false) (h : step s = .next t) :
    ∃ p s1 s2 rd, phaseOfCode s.seq = some p ∧ exec (phaseInstr p) s = .next s1 ∧ HostStep s1 s2 ∧
      t = setStale (staleAfter s) (endTick rd s2) := by
  obtain ⟨_, u, rfl, ⟨hrst, _⟩ | ⟨_, p, s1, hp, hx, hbus⟩⟩ := step_cases h
  · rw [hr] at hrst
    cases hrst
  · obtain ⟨s2, rd, hhost, rfl⟩ := hostStep_of_busAccess hbus
    exact ⟨p, s1, s2, rd, hp, hx, hhost, rfl⟩

/-- The phase at which an accepted command begins its sequence, none for a command without one
(41_init.md R150, 43_acquire.md R191, R201, 44_teardown.md R231). -/
def beginsAt : Instr → Option Phase
  | .init => some .iCfgSdata
  | .acqAll | .acqBit _ | .acqLoop => some .ldFall
  | .cancel | .release => some .rel
  | .describe => none
  | .idle | .iCfgSdata | .iCfgLoad | .iCfgClk | .iIdleLoad | .iIdleClk | .ldFall | .ldLowWait | .ldRise | .ldHighWait
  | .smp | .ckRise | .ckHighWait | .ckFall | .ckLowWait | .capture | .cadenceWait | .rel => none

/-- A command moves SEQ only from IDLE, to the phase at which its sequence begins (40_sequencer.md R124). -/
theorem commandStep_seq {i : Instr} {s t : State} (h : CommandStep s i t) :
    (t.seq = s.seq ∧ t.callst = s.callst) ∨
    (s.seq = 0x00#5 ∧ t.callst = .issue ∧ ∃ p, beginsAt i = some p ∧ t.seq = phaseCode p) := by
  cases h with
  | initStarts hs | acqAll hs | acqBit hs | acqLoop hs | cancelNow hs | releaseNow hs =>
    exact .inr ⟨hs, rfl, _, rfl, rfl⟩
  | rejected | initInvalid | cancelDeferred | releaseDeferred | describe => exact .inl ⟨rfl, rfl⟩

/-- The host's half moves SEQ only by a command that begins a sequence. -/
theorem hostStep_seq {s t : State} (h : HostStep s t) :
    (t.seq = s.seq ∧ t.callst = s.callst) ∨
    (s.seq = 0x00#5 ∧ t.callst = .issue ∧
      ∃ i p, writesCommand i s ∧ beginsAt i = some p ∧ t.seq = phaseCode p) := by
  cases h with
  | command hw hc =>
    rcases commandStep_seq hc with hsame | ⟨hs, hcall, p, hp, hseq⟩
    · exact .inl hsame
    · exact .inr ⟨hs, hcall, _, p, hw, hp, hseq⟩
  | none | rejected | width | pins => exact .inl ⟨rfl, rfl⟩

/-- No host access adds to TRACE (10_state.md R49). -/
theorem hostStep_trace {s t : State} (h : HostStep s t) : t.trace = s.trace := by
  cases h
  case command hw hc => cases hc <;> rfl
  all_goals rfl

/-! ### The phase graph -/

theorem self_successor {p : Phase} (h : p ≠ .capture) : (phaseCode p).toNat ∈ successors (phaseCode p).toNat := by
  cases p
  case capture => exact absurd rfl h
  all_goals decide

theorem rel_successor {p : Phase} {s : State} {q : PinReq} (h : phaseRequest p s = some q) :
    0x13 ∈ successors (phaseCode p).toNat := by
  cases p <;> cases h <;> decide

theorem callNext_successor {p q : Phase} (h : callNext p = some q) :
    (phaseCode q).toNat ∈ successors (phaseCode p).toNat := by
  cases p <;> cases h <;> decide

theorem waitNext_successor {p q : Phase} (h : waitNext p = some q) :
    (phaseCode q).toNat ∈ successors (phaseCode p).toNat := by
  cases p <;> cases h <;> decide

theorem ne_capture_of_request {s : State} {p : Phase} {q : PinReq} (h : phaseRequest p s = some q) : p ≠ .capture := by
  rintro rfl
  cases h

/-- A phase leaves SEQ at itself or at a successor (40_sequencer.md R136). -/
theorem phaseStep_successor {p : Phase} {s t : State} (hs : s.seq = phaseCode p) (h : PhaseStep s p t) :
    t.seq.toNat ∈ successors s.seq.toNat := by
  rw [hs]
  cases h with
  | idle => rw [hs]; decide
  | issue hreq | hold hreq =>
    rw [hs]
    exact self_successor (ne_capture_of_request hreq)
  | initFault _ ha => exact rel_successor ha.request
  | acqFault _ ha => exact rel_successor ha.request
  | advance hq => exact callNext_successor hq
  | expire hq => exact waitNext_successor hq
  | count hp =>
    rw [hs]
    exact self_successor fun hcap => by rw [hcap] at hp; cases hp
  | released => rw [relDone_seq]; decide
  | shifted =>
    rw [nextBit, goto_seq]
    split <;> decide
  | cadenceCount => rw [hs]; decide
  | configured | sampled | captureTorn | captureLoop | captureEnd | cadenceTorn | cadenceExpire =>
    simp only [endSeq_seq, goto_seq, startAcq_seq]
    decide

/-- Settles O51: the phase follows the graph, and a command moves SEQ only from the IDLE that the phase left. -/
theorem phaseGraph : Obligations.PhaseGraph := by
  intro s t hr h
  obtain ⟨p, s1, s2, rd, hp, hx, hhost, rfl⟩ := step_halves hr h
  have hgraph := phaseStep_successor (phaseCode_of_phaseOfCode hp) (phaseStep_of_exec hx)
  rcases hostStep_seq hhost with ⟨hseq, _⟩ | ⟨hidle, _, i, q, hw, hq, hseq⟩
  · refine .inl ?_
    rwa [setStale_seq, endTick_seq, hseq]
  · rw [hidle] at hgraph
    have hws := writesCommand_congr (exec_samePorts hx) hw
    refine .inr ⟨hgraph, ?_⟩
    cases i with
    | init => cases hq; exact .inl ⟨hseq, hws⟩
    | acqAll => cases hq; exact .inr (.inl ⟨hseq, .inl hws⟩)
    | acqLoop => cases hq; exact .inr (.inl ⟨hseq, .inr (.inl hws)⟩)
    | acqBit idx => cases hq; exact .inr (.inl ⟨hseq, .inr (.inr ⟨idx, hws⟩)⟩)
    | cancel => cases hq; exact .inr (.inr ⟨hseq, .inl hws⟩)
    | release => cases hq; exact .inr (.inr ⟨hseq, .inr hws⟩)
    | _ => cases hq

/-! ### One outstanding request -/

/-- A phase without a request leaves TRACE (10_state.md R49). -/
theorem phaseStep_trace {p : Phase} {s t : State} (hp : phaseRequest p s = none) (h : PhaseStep s p t) :
    t.trace = s.trace := by
  cases h with
  | initFault _ ha | acqFault _ ha | advance _ ha =>
    have hq := ha.request
    rw [hp] at hq
    cases hq
  | configured | sampled | released => cases hp
  | idle | issue | hold | count | expire | shifted | captureTorn | captureLoop | captureEnd | cadenceTorn | cadenceCount
  | cadenceExpire => rfl

theorem seq_ne_idle_of_request {s : State} {q : PinReq} (h : seqRequest s = some q) : s.seq ≠ 0x00#5 := by
  intro hs
  simp [seqRequest, hs, phaseOfCode, phaseRequest] at h

/-- A tick whose phase stays in a call leaves SEQ, CALLST and TRACE as the phase left them: no command moves SEQ out of
a call. -/
theorem hostStep_in_call {s t : State} {q : PinReq} (hq : seqRequest s = some q) (h : HostStep s t) :
    t.seq = s.seq ∧ t.callst = s.callst ∧ t.trace = s.trace := by
  rcases hostStep_seq h with ⟨hseq, hcall⟩ | ⟨hidle, _⟩
  · exact ⟨hseq, hcall, hostStep_trace h⟩
  · exact absurd hidle (seq_ne_idle_of_request hq)

/-- The tick that presents a request goes to WAIT (40_sequencer.md R128). -/
theorem step_issue {s t : State} {q : PinReq} (hr : rstNow s = false) (h : step s = .next t)
    (hq : seqRequest s = some q) (hc : s.callst = .issue) :
    t.seq = s.seq ∧ t.callst = .wait ∧ t.trace = s.trace := by
  obtain ⟨p, s1, s2, rd, hp, hx, hhost, rfl⟩ := step_halves hr h
  rw [exec_call_issue ((seqRequest_eq hp).symm.trans hq) hc] at hx
  cases hx
  have hkept := hostStep_in_call (s := { s with callst := .wait }) hq hhost
  exact hkept

/-- A waiting call holds until its response (40_sequencer.md R128). -/
theorem step_hold {s t : State} {q : PinReq} (hr : rstNow s = false) (h : step s = .next t)
    (hq : seqRequest s = some q) (hc : s.callst = .wait) (hrsp : rspNow s = none) :
    t.seq = s.seq ∧ t.callst = .wait ∧ t.trace = s.trace := by
  obtain ⟨p, s1, s2, rd, hp, hx, hhost, rfl⟩ := step_halves hr h
  rw [exec_call_hold ((seqRequest_eq hp).symm.trans hq) hc hrsp] at hx
  cases hx
  obtain ⟨hseq, hcall, htrace⟩ := hostStep_in_call hq hhost
  exact ⟨hseq, hcall.trans hc, htrace⟩

/-- The response ends the waiting call and enters it in TRACE (40_sequencer.md R128). -/
theorem step_answered {s t : State} {q : PinReq} {r : PinRsp} (hr : rstNow s = false) (h : step s = .next t)
    (hq : seqRequest s = some q) (hc : s.callst = .wait) (hrsp : rspNow s = some r) :
    t.callst = .issue ∧ t.trace = s.trace ++ [{ req := q, fault := r.fault, level := r.level }] := by
  obtain ⟨p, s1, s2, rd, hp, hx, hhost, rfl⟩ := step_halves hr h
  obtain ⟨u, hu, hissue, htrace⟩ := exec_call_answered ((seqRequest_eq hp).symm.trans hq) hc hrsp
  rw [hu] at hx
  cases hx
  refine ⟨?_, (hostStep_trace hhost).trans htrace⟩
  rcases hostStep_seq hhost with ⟨_, hcall⟩ | ⟨_, hcall, _⟩
  · exact hcall.trans hissue
  · exact hcall

/-- A phase without a request leaves TRACE, and so does its tick. -/
theorem step_trace_of_no_request {s t : State} (hr : rstNow s = false) (h : step s = .next t)
    (hq : seqRequest s = none) : t.trace = s.trace := by
  obtain ⟨p, s1, s2, rd, hp, hx, hhost, rfl⟩ := step_halves hr h
  exact (hostStep_trace hhost).trans (phaseStep_trace ((seqRequest_eq hp).symm.trans hq) (phaseStep_of_exec hx))

/-- Settles O53: the ISSUE tick, the ticks of WAIT and the ticks of the other phases. -/
theorem oneOutstandingRequest : Obligations.OneOutstandingRequest := by
  refine fun s t hr h => ⟨fun hvalid => ?_, fun hwait => ?_, fun htable => ?_⟩
  · obtain ⟨q, hq⟩ := (pinPort_valid_iff s).mp hvalid
    have hc : s.callst = .issue := by
      cases hc : s.callst with
      | issue => rfl
      | wait => simp [requestNow_of_wait hc] at hq
    rw [requestNow_of_issue hr hc] at hq
    exact step_issue hr h hq hc
  · obtain ⟨⟨q, hq⟩, hc⟩ := (awaiting_iff s).mp hwait
    refine ⟨by rw [pinPort_of_none (requestNow_of_wait hc)], step_hold hr h hq hc, fun r hrsp => ?_⟩
    obtain ⟨hissue, htrace⟩ := step_answered hr h hq hc hrsp
    refine ⟨hissue, q, ?_, htrace⟩
    rw [requestTable_seq, hq]
    rfl
  · have hq := (seqRequest_eq_none_iff s).mpr htable
    exact ⟨by rw [pinPort_of_none (requestNow_of_none hr hq)], step_trace_of_no_request hr h hq⟩

end Sys2Proof.Machine

/-! The table of acceptance (40_sequencer.md R123 to R125). -/

namespace Sys2Proof.Machine

open Sys2Proof.Safety

/-- One of the seven host commands (30_encoding.md R91). -/
def IsCommand (i : Instr) : Prop :=
  i = .init ∨ i = .acqAll ∨ (∃ idx, i = .acqBit idx) ∨ i = .acqLoop ∨ i = .cancel ∨ i = .describe ∨ i = .release

/-- The table rejects commands only. -/
theorem isCommand_of_rejected {i : Instr} {s : State} {c : RejCode} (h : rejectionOf i s = some c) : IsCommand i := by
  cases i
  case init | acqAll | acqBit | acqLoop | cancel | describe | release => simp [IsCommand]
  all_goals cases h

/-- How the table answers a command: its rejection, or the effect after `REJ <- NONE` (40_sequencer.md R124, R125). -/
def tableAnswer (rejection : Option RejCode) (effect : State → Result) (s : State) : Result :=
  match rejection with
  | some c => .next (reject c s)
  | none => effect (accepted s)

theorem acceptIdle_tableAnswer {legal : Bool} {f : State → Result} {s : State} {rejection : Option RejCode}
    (hbusy : s.seq ≠ 0x00#5 → rejection = some .busy)
    (hbad : s.seq = 0x00#5 → legal = false → rejection = some .badState)
    (hok : s.seq = 0x00#5 → legal = true → rejection = none) : acceptIdle legal f s = tableAnswer rejection f s := by
  rcases acceptIdle_cases legal f s with ⟨hb, h⟩ | ⟨hb, hl, h⟩ | ⟨hb, hl, h⟩ <;> rw [h]
  · rw [hbusy ((busy_eq_true_iff s).mp hb)]
    rfl
  · rw [hok ((busy_eq_false_iff s).mp hb) hl]
    rfl
  · rw [hbad ((busy_eq_false_iff s).mp hb) hl]
    rfl

/-- ACQ_ALL and ACQ_LOOP have one row of the table. -/
theorem acceptAcq_tableAnswer (f : State → Result) (s : State) :
    acceptIdle (decide (s.life = .active)) f s = tableAnswer (rejectionOf .acqAll s) f s := by
  refine acceptIdle_tableAnswer (fun hs => ?_) (fun hs hl => ?_) fun hs hl => ?_
  · simp [rejectionOf, hs]
  · simp [rejectionOf, hs, of_decide_eq_false hl]
  · simp [rejectionOf, hs, of_decide_eq_true hl]

/-- ACQ_BIT checks its operand last (40_sequencer.md R123). -/
theorem execAcqBit_tableAnswer (idx : BitVec 7) (s : State) :
    execAcqBit idx s = tableAnswer (rejectionOf (.acqBit idx) s)
      (fun s => .next (beginAcq .acqBit { s with curIdx := idx.setWidth 6 })) s := by
  unfold execAcqBit
  split
  next hb => simp [rejectionOf, tableAnswer, (busy_eq_true_iff s).mp hb]
  next hb =>
    have hs : s.seq = 0x00#5 := (busy_eq_false_iff s).mp (Bool.eq_false_iff.mpr hb)
    split
    next hl =>
      split
      next hi => simp [rejectionOf, tableAnswer, hs, hl, Nat.not_le.mpr hi]
      next hi => simp [rejectionOf, tableAnswer, hs, hl, Nat.not_lt.mp hi]
    next hl => simp [rejectionOf, tableAnswer, hs, hl]

/-- CANCEL and RELEASE have one row of the table. -/
theorem acceptTeardown_tableAnswer (d n : State → State) (s : State) :
    acceptTeardown d n s =
      tableAnswer (rejectionOf .cancel s) (fun s => .next (if busy s then d s else n s)) s := by
  have hbusy : busy (accepted s) = busy s := rfl
  rcases acceptTeardown_cases d n s with ⟨hb, ha, h⟩ | ⟨hb, ha, h⟩ | ⟨hb, hl, h⟩ | ⟨hb, hl, h⟩ <;> rw [h]
  · have hs := (busy_eq_true_iff s).mp hb
    have hrow : rejectionOf .cancel s = none := by
      simp only [rejectionOf, if_pos hs]
      exact if_pos ((inAcq_eq_true_iff s).mp ha)
    simp [hrow, tableAnswer, hbusy, hb]
  · have hs := (busy_eq_true_iff s).mp hb
    have hrow : rejectionOf .cancel s = some .busy := by
      simp only [rejectionOf, if_pos hs]
      exact if_neg fun hq => absurd ((inAcq_eq_true_iff s).mpr hq) (Bool.eq_false_iff.mp ha)
    simp [hrow, tableAnswer]
  · have hrow : rejectionOf .cancel s = none := by simp [rejectionOf, (busy_eq_false_iff s).mp hb, hl]
    simp [hrow, tableAnswer, hbusy, hb]
  · have hrow : rejectionOf .cancel s = some .badState := by simp [rejectionOf, (busy_eq_false_iff s).mp hb, hl]
    simp [hrow, tableAnswer]

/-- An accepted INIT is refused only for a valid configuration that shares a pin (41_init.md R150, log 9). -/
theorem performInit_answers {s : State} (h : ¬ ConfigOk s ∨ PinsFree s) :
    ∃ t, performInit s = .next t ∧ t.rej = s.rej := by
  unfold performInit
  dsimp only
  split
  next hv =>
    have hfree : sharesPin (clearRecords s) = false := by
      rcases h with h | h
      · exact absurd ((cfgValid_iff (clearRecords s)).mp hv) h
      · exact (sharesPin_eq_false_iff (clearRecords s)).mpr h
    rw [hfree]
    exact ⟨_, rfl, rfl⟩
  next => exact ⟨_, rfl, rfl⟩

/-- Every command answers as its row of the table says (40_sequencer.md R122 to R125). -/
theorem exec_tableAnswer {i : Instr} (hi : IsCommand i) (s : State) :
    ∃ f, exec i s = tableAnswer (rejectionOf i s) f s ∧
      (i ≠ .init ∨ ¬ ConfigOk s ∨ PinsFree s → ∃ t, f (accepted s) = .next t ∧ t.rej = .none) := by
  rcases hi with rfl | rfl | ⟨idx, rfl⟩ | rfl | rfl | rfl | rfl
  · refine ⟨performInit, acceptIdle_tableAnswer ?_ ?_ ?_, fun hok => ?_⟩
    · exact fun hs => by simp [rejectionOf, hs]
    · exact fun hs hl => by simp [rejectionOf, hs, not_not.mp (of_decide_eq_false hl)]
    · exact fun hs hl => by simp [rejectionOf, hs, of_decide_eq_true hl]
    · exact performInit_answers (s := accepted s) (hok.resolve_left (not_not.mpr rfl))
  · exact ⟨_, acceptAcq_tableAnswer (fun s => .next (beginAcq .acqAll s)) s, fun _ => ⟨_, rfl, rfl⟩⟩
  · exact ⟨_, execAcqBit_tableAnswer idx s, fun _ => ⟨_, rfl, rfl⟩⟩
  · exact ⟨_, acceptAcq_tableAnswer (fun s => .next (beginAcq .acqLoop { s with loopMode := true })) s,
      fun _ => ⟨_, rfl, rfl⟩⟩
  · refine ⟨_, acceptTeardown_tableAnswer _ _ s, fun _ => ⟨_, rfl, ?_⟩⟩
    split <;> rfl
  · refine ⟨_, acceptIdle_tableAnswer (f := fun s => .next { s with result := describeWord s, done := true }) ?_ ?_ ?_,
      fun _ => ⟨_, rfl, rfl⟩⟩
    · exact fun hs => by simp [rejectionOf, hs]
    · exact fun _ hl => nomatch hl
    · exact fun hs _ => by simp [rejectionOf, hs]
  · refine ⟨_, acceptTeardown_tableAnswer _ _ s, fun _ => ⟨_, rfl, ?_⟩⟩
    split <;> rfl

/-- Settles O23: the answer of the table, at its rejections and at its acceptance. -/
theorem commandTable : Obligations.CommandTable := by
  refine fun s i => ⟨fun c hc => ?_, fun hi hnone hok => ?_⟩
  · obtain ⟨f, hx, _⟩ := exec_tableAnswer (isCommand_of_rejected hc) s
    rw [hx, hc]
    rfl
  · obtain ⟨f, hx, heffect⟩ := exec_tableAnswer hi s
    rw [hx, hnone]
    exact heffect hok

end Sys2Proof.Machine

/-! The settle waits, and ticks in which neither the host nor a call acts (40_sequencer.md R131, R139). -/

namespace Sys2Proof.Machine

open Sys2Proof.Safety

/-! ### One tick of a settle wait -/

/-- What a settle wait does when it expires (42_pulses.md R172, R174, R177, R179). -/
def settleExpiry : Phase → State → State
  | .ldLowWait => goto .ldRise
  | .ldHighWait => goto .smp
  | .ckHighWait => goto .ckFall
  | .ckLowWait => nextBit
  | .idle | .iCfgSdata | .iCfgLoad | .iCfgClk | .iIdleLoad | .iIdleClk | .ldFall | .ldRise | .smp | .ckRise
  | .ckFall | .capture | .cadenceWait | .rel => id

theorem exec_settle {p : Phase} (hp : settlePhase p = true) (s : State) :
    exec (phaseInstr p) s = .next (waitStep (settleExpiry p) s) := by
  cases p <;> cases hp <;> rfl

theorem settle_no_request {p : Phase} (hp : settlePhase p = true) (s : State) : phaseRequest p s = none := by
  cases p <;> cases hp <;> rfl

theorem exec_settle_count {p : Phase} (hp : settlePhase p = true) {s : State} (ht : 2 ≤ s.tmr.toNat) :
    exec (phaseInstr p) s = .next { s with tmr := s.tmr - 1#32 } := by
  have hne : s.tmr ≠ 1#32 := by bv_omega
  rw [exec_settle hp, waitStep_count hne]

theorem exec_settle_expire {p : Phase} (hp : settlePhase p = true) {s : State} (ht : s.tmr = 1#32) :
    exec (phaseInstr p) s = .next (settleExpiry p { s with tmr := 0#32 }) := by
  rw [exec_settle hp, waitStep_expire ht]

/-- The expiry of a settle wait leaves TRACE. -/
theorem settleExpiry_trace (p : Phase) (s : State) : (settleExpiry p s).trace = s.trace := by
  cases p <;> rfl

/-- Settles O31: the timer primitive, at each of the four waits. -/
theorem settleWaits : Obligations.SettleWaits := by
  refine fun s => ⟨fun ht i hi => ?_, fun ht => ?_⟩
  · simp only [List.mem_cons, List.not_mem_nil, or_false] at hi
    rcases hi with rfl | rfl | rfl | rfl
    · exact exec_settle_count (p := .ldLowWait) rfl ht
    · exact exec_settle_count (p := .ldHighWait) rfl ht
    · exact exec_settle_count (p := .ckHighWait) rfl ht
    · exact exec_settle_count (p := .ckLowWait) rfl ht
  · exact ⟨exec_settle_expire (p := .ldLowWait) rfl ht, exec_settle_expire (p := .ldHighWait) rfl ht,
      exec_settle_expire (p := .ckHighWait) rfl ht⟩

/-! ### Ticks without a host access -/

/-- The responses among the inputs of the next `n` ticks. -/
def responses (n : Nat) (s : State) : Nat := (s.env.take n).countP fun x => x.rsp.isSome

/-- The next `n` ticks have no reset and no host access, and no more responses than requests that a reset abandoned
(60_exceptions.md R273, log 5). -/
structure HostSilent (n : Nat) (s : State) : Prop where
  inputs : ∀ x ∈ s.env.take n, x.rst = false ∧ x.acc = none
  late : responses n s ≤ s.stale

/-- The block of `s`, `n` ticks of inputs later. -/
def elapse (n : Nat) (rd : Option Word) (s : State) : State :=
  { s with env := s.env.drop n, rdata := rd, stale := s.stale - responses n s }

theorem responses_succ (n : Nat) (s : State) (rd : Option Word) :
    responses (n + 1) s = responses 1 s + responses n (elapse 1 rd s) := by
  unfold responses elapse
  cases s.env with
  | nil => simp
  | cons x xs => simp [List.countP_cons, Nat.add_comm]

theorem elapse_elapse (n : Nat) (rd rd1 : Option Word) (s : State) :
    elapse n rd (elapse 1 rd1 s) = elapse (n + 1) rd s := by
  have hcount : s.stale - responses 1 s - responses n (elapse 1 rd1 s) = s.stale - responses (n + 1) s := by
    rw [responses_succ n s rd1]
    omega
  have henv : (s.env.drop 1).drop n = s.env.drop (n + 1) := by rw [List.drop_drop, Nat.add_comm]
  unfold elapse at hcount ⊢
  rw [← hcount, ← henv]

theorem HostSilent.first {n : Nat} {s : State} (h : HostSilent (n + 1) s) :
    rstNow s = false ∧ accNow s = none ∧ responses 1 s ≤ s.stale := by
  have hlate := h.late
  rw [responses_succ n s none] at hlate
  have hnow : rstNow s = false ∧ accNow s = none := by
    cases he : s.env with
    | nil => simp [rstNow, accNow, tickIn, he, quietTick]
    | cons x xs => simpa [rstNow, accNow, tickIn, he] using h.inputs x (by simp [he])
  obtain ⟨hrst, hacc⟩ := hnow
  exact ⟨hrst, hacc, by omega⟩

theorem HostSilent.rest {n : Nat} {s : State} (h : HostSilent (n + 1) s) (rd : Option Word) :
    HostSilent n (elapse 1 rd s) := by
  have hlate := h.late
  rw [responses_succ n s rd] at hlate
  have hstale : (elapse 1 rd s).stale = s.stale - responses 1 s := rfl
  refine ⟨fun x hx => h.inputs x ?_, by omega⟩
  rw [← List.take_append_drop 1 (s.env.take (n + 1)), List.drop_take]
  exact List.mem_append_right _ hx

theorem HostSilent.congr {n : Nat} {s t : State} (h : HostSilent n s) (hports : SamePorts s t) : HostSilent n t := by
  obtain ⟨_, henv, _, hstale⟩ := hports
  refine ⟨by rw [henv]; exact h.inputs, ?_⟩
  rw [responses, henv, hstale]
  exact h.late

/-- A response outside a call is late: the tick counts it off, and is refused only if none is awaited. -/
theorem late_response {s : State} (hwait : awaiting s = false) (hlate : responses 1 s ≤ s.stale) :
    spurious s = false ∧ staleAfter s = s.stale - responses 1 s := by
  have hone : responses 1 s = if (rspNow s).isSome then 1 else 0 := by
    unfold responses rspNow tickIn
    cases s.env <;> simp [quietTick, List.countP_cons]
  rw [hone] at hlate ⊢
  cases hr : rspNow s with
  | none => exact ⟨spurious_of_no_response hr, staleAfter_of_quiet hwait hr⟩
  | some r =>
    simp only [hr, Option.isSome_some, if_true] at hlate ⊢
    have hpos : s.stale ≠ 0 := by omega
    exact ⟨by simp [spurious, hpos], by simp [staleAfter, hwait, hr]⟩

/-- In a tick without a host access a phase without a request does its own effect and no more, and the host stays
silent. -/
theorem step_silent {n : Nat} {p : Phase} {s s1 : State} (h : HostSilent (n + 1) s) (hseq : s.seq = phaseCode p)
    (hreq : phaseRequest p s = none) (hx : exec (phaseInstr p) s = .next s1) :
    step s = .next (elapse 1 none s1) ∧ HostSilent n (elapse 1 none s1) := by
  obtain ⟨hr, hacc, hlate⟩ := h.first
  have hwait : awaiting s = false := by simp [awaiting, hseq, hreq]
  obtain ⟨hs, hstale⟩ := late_response hwait hlate
  obtain ⟨_, henv, _, hst⟩ := exec_samePorts hx
  obtain ⟨hquiet, _⟩ := stepRunsPhaseThenHostAccess s s1 _ hs hr (hseq ▸ decode_phaseCode p) hx
  refine ⟨?_, (h.congr (exec_samePorts hx)).rest none⟩
  rw [hquiet hacc, hstale, ← henv, ← hst, ← List.drop_one]
  simp only [elapse, responses, henv]

/-! ### Runs -/

theorem run_succ {s t : State} (h : step s = .next t) (n : Nat) :
    Sys2Proof.core.run (n + 1) s = Sys2Proof.core.run n t := by
  have hstep : Sys2Proof.core.step s = .next t := h
  simp only [Host.Core.run, hstep]

theorem run_add {m : Nat} {s t : State} (h : Sys2Proof.core.run m s = .next t) (n : Nat) :
    Sys2Proof.core.run (m + n) s = Sys2Proof.core.run n t := by
  induction m generalizing s with
  | zero =>
    cases h
    rw [Nat.zero_add]
  | succ m ih =>
    simp only [Host.Core.run] at h
    split at h
    · next u hu =>
      rw [Nat.add_right_comm, run_succ hu]
      exact ih h
    · cases h
    · cases h

/-- IDLE, tick after tick, when the host is silent. -/
theorem run_idle {n : Nat} {s : State} (hseq : s.seq = 0x00#5) (h : HostSilent n s) :
    ∃ rd, Sys2Proof.core.run n s = .next (elapse n rd s) := by
  induction n generalizing s with
  | zero => exact ⟨s.rdata, rfl⟩
  | succ n ih =>
    obtain ⟨hstep, hrest⟩ := step_silent (p := .idle) h hseq rfl rfl
    obtain ⟨rd, hrun⟩ := ih (s := elapse 1 none s) hseq hrest
    exact ⟨rd, by rw [run_succ hstep, hrun, elapse_elapse]⟩

/-- Settles O57: every input to come is silent. -/
theorem quiescentStays : Obligations.QuiescentStays := by
  intro s n hq hlate
  simp only [quiescent, Bool.and_eq_true, decide_eq_true_iff, List.all_eq_true, Bool.not_eq_true',
    Option.isNone_iff_eq_none] at hq
  obtain ⟨hseq, hinputs⟩ := hq
  exact run_idle hseq ⟨fun x hx => hinputs x (List.mem_of_mem_take hx), hlate⟩

/-- A settle wait of `s`, `k` ticks later. -/
def waited (k : Nat) (rd : Option Word) (s : State) : State :=
  { elapse k rd s with tmr := s.tmr - BitVec.ofNat 32 k }

theorem waited_tmr {k : Nat} {s : State} (h : k ≤ s.tmr.toNat) (rd : Option Word) :
    (waited k rd s).tmr.toNat = s.tmr.toNat - k := by
  have hlt := s.tmr.isLt
  have hk : (BitVec.ofNat 32 k).toNat = k := by simp; omega
  simp only [waited]
  bv_omega

/-- A settle wait, tick after tick, while the host is silent and TMR does not reach 0. -/
theorem run_settle_count {p : Phase} (hp : settlePhase p = true) {k j : Nat} {s : State} (hseq : s.seq = phaseCode p)
    (h : HostSilent (k + j) s) (ht : k < s.tmr.toNat) :
    ∃ rd, Sys2Proof.core.run k s = .next (waited k rd s) ∧ HostSilent j (waited k rd s) := by
  induction k generalizing s with
  | zero =>
    have hnow : waited 0 s.rdata s = s := by simp [waited, elapse, responses]
    refine ⟨s.rdata, ?_⟩
    rw [hnow]
    exact ⟨rfl, by rwa [Nat.zero_add] at h⟩
  | succ k ih =>
    rw [Nat.add_right_comm] at h
    obtain ⟨hstep, hrest⟩ :=
      step_silent h hseq (settle_no_request hp s) (exec_settle_count hp (s := s) (by omega))
    have hlt : k < (s.tmr - 1#32).toNat := by bv_omega
    obtain ⟨rd, hrun, hsilent⟩ := ih (s := elapse 1 none { s with tmr := s.tmr - 1#32 }) hseq hrest hlt
    have hwaited : waited k rd (elapse 1 none { s with tmr := s.tmr - 1#32 }) = waited (k + 1) rd s := by
      have htmr : s.tmr - 1#32 - BitVec.ofNat 32 k = s.tmr - BitVec.ofNat 32 (k + 1) := by bv_omega
      unfold waited
      rw [elapse_elapse, ← htmr]
      rfl
    rw [hwaited] at hrun hsilent
    exact ⟨rd, by rw [run_succ hstep, hrun], hsilent⟩

theorem nextBit_seq_toNat (s : State) :
    (nextBit s).seq.toNat = if s.bit.toNat + 1 < s.cfgWidth.toNat then 0x0C else 0x11 := by
  rw [nextBit, goto_seq]
  split <;> rfl

/-- The codes of the four settle waits and of the phases that follow them. -/
theorem settle_of_row {s : State} {next : Nat}
    (h : (s.seq.toNat, next) ∈ [(0x09, 0x0A), (0x0B, 0x0C), (0x0E, 0x0F),
      (0x10, if s.bit.toNat + 1 < s.cfgWidth.toNat then 0x0C else 0x11)]) :
    ∃ p, s.seq = phaseCode p ∧ settlePhase p = true ∧
      ∀ u : State, u.bit = s.bit → u.cfgWidth = s.cfgWidth → (settleExpiry p u).seq.toNat = next := by
  simp only [List.mem_cons, List.not_mem_nil, or_false, Prod.mk.injEq] at h
  rcases h with ⟨hs, rfl⟩ | ⟨hs, rfl⟩ | ⟨hs, rfl⟩ | ⟨hs, rfl⟩
  · exact ⟨.ldLowWait, BitVec.eq_of_toNat_eq hs, rfl, fun _ _ _ => rfl⟩
  · exact ⟨.ldHighWait, BitVec.eq_of_toNat_eq hs, rfl, fun _ _ _ => rfl⟩
  · exact ⟨.ckHighWait, BitVec.eq_of_toNat_eq hs, rfl, fun _ _ _ => rfl⟩
  · refine ⟨.ckLowWait, BitVec.eq_of_toNat_eq hs, rfl, fun u hbit hwidth => ?_⟩
    rw [← hbit, ← hwidth]
    exact nextBit_seq_toNat u

/-- Settles O56: all but the last tick count, and the last one expires. -/
theorem settleWaitLasts : Obligations.SettleWaitLasts := by
  intro s n next hn ht _ hrow hinputs hlate
  obtain ⟨p, hseq, hp, hnext⟩ := settle_of_row hrow
  have hsilent : HostSilent n s := ⟨hinputs, hlate⟩
  refine ⟨fun k hk => ?_, ?_⟩
  · obtain ⟨j, rfl⟩ := Nat.exists_eq_add_of_lt hk
    obtain ⟨rd, hrun, _⟩ := run_settle_count hp hseq (j := j + 1) hsilent (ht ▸ hk)
    exact ⟨_, hrun, rfl, by rw [waited_tmr (by omega), ht], rfl⟩
  · obtain ⟨m, rfl⟩ := Nat.exists_eq_add_of_le' hn
    obtain ⟨rd, hrun, hlast⟩ := run_settle_count hp hseq hsilent (by omega)
    have hone : (waited m rd s).tmr = 1#32 := by
      apply BitVec.eq_of_toNat_eq
      rw [waited_tmr (by omega), ht, Nat.add_sub_cancel_left]
      rfl
    obtain ⟨hstep, _⟩ := step_silent hlast hseq (settle_no_request hp _) (exec_settle_expire hp hone)
    refine ⟨_, (run_add hrun 1).trans (run_succ hstep 0), ?_, ?_⟩
    · exact hnext { waited m rd s with tmr := 0#32 } rfl rfl
    · exact settleExpiry_trace p { waited m rd s with tmr := 0#32 }

end Sys2Proof.Machine

/-! A whole call, tick by tick: its ISSUE tick, the ticks in which it holds, and the tick of its response
(40_sequencer.md R128, R134). -/

namespace Sys2Proof.Machine

open Sys2Proof.Safety

/-! ### One tick of a call -/

/-- The inputs of the tick that answers a call without a fault. -/
def answerTick (l : Level) : TickIn := { rst := false, rsp := some { fault := false, level := l }, acc := none }

/-- The block of `s` before the inputs `e`, after a tick that answered no read. -/
def before (e : List TickIn) (s : State) : State := { s with env := e, rdata := none }

/-- A tick without reset and host access, which keeps the count of abandoned requests, only runs its phase. -/
theorem step_without_access {p : Phase} {s t : State} (hseq : s.seq = phaseCode p) (hs : spurious s = false)
    (hr : rstNow s = false) (hacc : accNow s = none) (hstale : staleAfter s = s.stale)
    (hx : exec (phaseInstr p) s = .next t) : step s = .next (before s.env.tail t) := by
  have hdecode : decode (.uop s.seq) = .ok (phaseInstr p) := hseq ▸ decode_phaseCode p
  obtain ⟨hquiet, _⟩ := stepRunsPhaseThenHostAccess s t _ hs hr hdecode hx
  obtain ⟨_, _, _, hkept⟩ := exec_samePorts hx
  rw [hquiet hacc, hstale, ← hkept]
  rfl

/-- Without reset and response, no request is abandoned and none is answered (log 5). -/
theorem staleAfter_of_no_response {s : State} (hr : rstNow s = false) (hrsp : rspNow s = none) :
    staleAfter s = s.stale := by
  cases hwait : awaiting s <;> simp [staleAfter, hwait, hrsp, hr]

/-- A tick without any input runs its phase. -/
theorem step_quiet {p : Phase} {s t : State} {e : List TickIn} (hseq : s.seq = phaseCode p)
    (henv : s.env = quietTick :: e) (hx : exec (phaseInstr p) s = .next t) : step s = .next (before e t) := by
  have hin : tickIn s = quietTick := by rw [tickIn, henv]
  have hr : rstNow s = false := congrArg TickIn.rst hin
  have hrsp : rspNow s = none := congrArg TickIn.rsp hin
  have hstep := step_without_access hseq (spurious_of_no_response hrsp) hr (congrArg TickIn.acc hin)
    (staleAfter_of_no_response hr hrsp) hx
  rwa [henv] at hstep

/-- The tick that answers the waiting call runs its phase: the response is expected (20_memory.md R77). -/
theorem step_answer {p : Phase} {q : PinReq} {l : Level} {s t : State} {e : List TickIn} (hseq : s.seq = phaseCode p)
    (hq : phaseRequest p s = some q) (hc : s.callst = .wait) (henv : s.env = answerTick l :: e)
    (hx : exec (phaseInstr p) s = .next t) : step s = .next (before e t) := by
  have hin : tickIn s = answerTick l := by rw [tickIn, henv]
  have hrsp : rspNow s = some ⟨false, l⟩ := congrArg TickIn.rsp hin
  have hwait : awaiting s = true := awaiting_of_answered (by rw [hseq, phaseOfCode_phaseCode]) ⟨hq, hc, hrsp⟩
  have hstep := step_without_access hseq (by simp [spurious, hwait]) (congrArg TickIn.rst hin)
    (congrArg TickIn.acc hin) (by simp [staleAfter, hwait, hrsp]) hx
  rwa [henv] at hstep

/-! ### A whole call -/

/-- `s` in the WAIT sub-state of its call, before the inputs `e`. -/
def waiting (e : List TickIn) (s : State) : State := before e { s with callst := .wait }

theorem waiting_before (e f : List TickIn) (s : State) : waiting e (before f s) = waiting e s := rfl

/-- The request of a phase depends on the configuration only (30_encoding.md R100). -/
theorem phaseRequest_congr {s t : State} (h : SameConfig s t) (p : Phase) : phaseRequest p t = phaseRequest p s := by
  obtain ⟨_, _, hsdata, hload, hclk⟩ := h
  cases p <;> simp only [phaseRequest, reqCfgSdata, reqRead, hsdata, hload, hclk]

theorem phaseRequest_before (p : Phase) (e : List TickIn) (s : State) :
    phaseRequest p (before e s) = phaseRequest p s := by
  have hsame : SameConfig s (before e s) := ⟨rfl, rfl, rfl, rfl, rfl⟩
  exact phaseRequest_congr hsame p

theorem phaseRequest_waiting (p : Phase) (e : List TickIn) (s : State) :
    phaseRequest p (waiting e s) = phaseRequest p s := by
  have hsame : SameConfig s (waiting e s) := ⟨rfl, rfl, rfl, rfl, rfl⟩
  exact phaseRequest_congr hsame p

/-- A call holds as long as no response comes. -/
theorem run_call_hold {p : Phase} {q : PinReq} {s : State} (hseq : s.seq = phaseCode p)
    (hq : phaseRequest p s = some q) (n : Nat) (e : List TickIn) :
    Sys2Proof.core.run n (waiting (quietTicks n ++ e) s) = .next (waiting e s) := by
  induction n with
  | zero => rfl
  | succ n ih =>
    have hx : exec (phaseInstr p) (waiting (quietTicks (n + 1) ++ e) s) = .next (waiting (quietTicks (n + 1) ++ e) s) :=
      exec_call_hold ((phaseRequest_waiting p _ s).trans hq) rfl rfl
    have hstep : step (waiting (quietTicks (n + 1) ++ e) s) = .next (waiting (quietTicks n ++ e) s) :=
      step_quiet (t := waiting (quietTicks (n + 1) ++ e) s) hseq rfl hx
    rw [run_succ hstep, ih]

/-- A call whose request is answered without a fault `latency` ticks later: the ISSUE tick, the ticks in which it holds,
and the tick of its response, which `t` describes (40_sequencer.md R128). -/
theorem run_call {p : Phase} {q : PinReq} {s t : State} {latency : Nat} {l : Level} {e : List TickIn}
    (hlat : 1 ≤ latency) (hseq : s.seq = phaseCode p) (hq : phaseRequest p s = some q) (hc : s.callst = .issue)
    (henv : s.env = callTicks latency l ++ e)
    (hx : exec (phaseInstr p) (waiting (answerTick l :: e) s) = .next t) :
    Sys2Proof.core.run (latency + 1) s = .next (before e t) := by
  obtain ⟨n, rfl⟩ := Nat.exists_eq_add_of_le' hlat
  have hticks : s.env = quietTick :: (quietTicks n ++ answerTick l :: e) := by
    rw [henv, callTicks, List.append_assoc]
    rfl
  have hissue : step s = .next (waiting (quietTicks n ++ answerTick l :: e) s) :=
    step_quiet hseq hticks (exec_call_issue hq hc)
  have hanswer : step (waiting (answerTick l :: e) s) = .next (before e t) :=
    step_answer hseq ((phaseRequest_waiting p _ s).trans hq) rfl rfl hx
  rw [run_succ hissue, run_add (run_call_hold hseq hq n _), run_succ hanswer]
  rfl

end Sys2Proof.Machine

/-! INIT: its acceptance, its five phases and a whole successful run of it (41_init.md). -/

namespace Sys2Proof.Machine

open Sys2Proof.Safety

/-! ### Acceptance (41_init.md R150, R151) -/

/-- What INIT leaves when its configuration is valid: the records cleared, and the first phase next. -/
def initBegun (s : State) : State := goto .iCfgSdata { clearRecords (accepted s) with curOp := some .init }

theorem exec_init_accepted {s : State} (hs : s.seq = 0x00#5) (hl : s.life ≠ .active) :
    exec .init s = performInit (accepted s) := by
  rcases acceptIdle_cases (decide (s.life ≠ .active)) performInit s with ⟨hb, _⟩ | ⟨_, _, h⟩ | ⟨_, hbad, _⟩
  · exact absurd hs ((busy_eq_true_iff s).mp hb)
  · exact h
  · exact absurd hl (of_decide_eq_false hbad)

theorem performInit_valid {s : State} (hv : ConfigOk s) (hp : PinsFree s) :
    performInit s = .next (goto .iCfgSdata { clearRecords s with curOp := some .init }) := by
  have hvalid : cfgValid (clearRecords s) = true := (cfgValid_iff (clearRecords s)).mpr hv
  have hfree : sharesPin (clearRecords s) = false := (sharesPin_eq_false_iff (clearRecords s)).mpr hp
  simp [performInit, hvalid, hfree]

theorem performInit_invalid {s : State} (hv : ¬ ConfigOk s) :
    performInit s = .next { clearRecords s with err := .configuration, done := true } := by
  have hinvalid : ¬ cfgValid (clearRecords s) = true := fun h => hv ((cfgValid_iff (clearRecords s)).mp h)
  simp [performInit, hinvalid]

/-- Settles O16: INIT is accepted, and its configuration is valid and its own. -/
theorem initStarts : Obligations.InitStarts := by
  intro s hs hl hv hp
  rw [exec_init_accepted hs hl, performInit_valid (s := accepted s) hv hp]
  rfl

/-- Settles O17: INIT is accepted, and its configuration is invalid. -/
theorem initConfigurationError : Obligations.InitConfigurationError := by
  intro s hs hl hv
  rw [exec_init_accepted hs hl, performInit_invalid (s := accepted s) hv]
  rfl

/-! ### The phases (41_init.md R152 to R157) -/

/-- What an init phase does after its call succeeded (41_init.md R152 to R156). -/
def initNext : Phase → State → State
  | .iCfgSdata => goto .iCfgLoad
  | .iCfgLoad => goto .iCfgClk
  | .iCfgClk => goto .iIdleLoad
  | .iIdleLoad => goto .iIdleClk
  | .iIdleClk => fun s => endSeq { s with life := .active }
  | .idle | .ldFall | .ldLowWait | .ldRise | .ldHighWait | .smp | .ckRise | .ckHighWait | .ckFall | .ckLowWait
  | .capture | .cadenceWait | .rel => id

theorem exec_initPhase {p : Phase} (hp : initPhase p = true) {s : State} {q : PinReq}
    (hq : phaseRequest p s = some q) : exec (phaseInstr p) s = .next (initCall q (initNext p) s) := by
  cases p <;> cases hp <;> cases hq <;> rfl

theorem exec_initPhase_ok {p : Phase} (hp : initPhase p = true) {s : State} {q : PinReq} {l : Level}
    (ha : Answered s p q false l) : exec (phaseInstr p) s = .next (initNext p (logCall q false l s)) := by
  rw [exec_initPhase hp ha.request, initCall, callStep_ok ha.waits ha.response]

theorem exec_initPhase_fault {p : Phase} (hp : initPhase p = true) {s : State} {q : PinReq} {l : Level}
    (ha : Answered s p q true l) :
    exec (phaseInstr p) s = .next (fatal .initialization q.op (logCall q true l s)) := by
  rw [exec_initPhase hp ha.request, initCall, callStep_fault ha.waits ha.response]

/-- Settles O26: each phase's call succeeds. -/
theorem initPhasesAdvance : Obligations.InitPhasesAdvance := by
  intro s l hc hr
  exact ⟨exec_initPhase_ok (p := .iCfgSdata) rfl ⟨rfl, hc, hr⟩, exec_initPhase_ok (p := .iCfgLoad) rfl ⟨rfl, hc, hr⟩,
    exec_initPhase_ok (p := .iCfgClk) rfl ⟨rfl, hc, hr⟩, exec_initPhase_ok (p := .iIdleLoad) rfl ⟨rfl, hc, hr⟩,
    exec_initPhase_ok (p := .iIdleClk) rfl ⟨rfl, hc, hr⟩⟩

/-- Settles O27: each phase's call fails. -/
theorem initPhaseFault : Obligations.InitPhaseFault := by
  intro s l hc hr i q hi
  simp only [List.mem_cons, List.not_mem_nil, or_false, Prod.mk.injEq] at hi
  rcases hi with ⟨rfl, rfl⟩ | ⟨rfl, rfl⟩ | ⟨rfl, rfl⟩ | ⟨rfl, rfl⟩ | ⟨rfl, rfl⟩
  · exact exec_initPhase_fault (p := .iCfgSdata) rfl ⟨rfl, hc, hr⟩
  · exact exec_initPhase_fault (p := .iCfgLoad) rfl ⟨rfl, hc, hr⟩
  · exact exec_initPhase_fault (p := .iCfgClk) rfl ⟨rfl, hc, hr⟩
  · exact exec_initPhase_fault (p := .iIdleLoad) rfl ⟨rfl, hc, hr⟩
  · exact exec_initPhase_fault (p := .iIdleClk) rfl ⟨rfl, hc, hr⟩

/-! ### A whole INIT (41_init.md R158, R159) -/

/-- The end of a call overwrites its WAIT. -/
theorem before_initNext {p : Phase} (hp : initPhase p = true) (q : PinReq) (l : Level) (e f : List TickIn) (s : State) :
    before e (initNext p (logCall q false l (waiting f s))) = before e (initNext p (logCall q false l s)) := by
  cases p <;> cases hp <;> simp only [before, waiting, initNext, logCall, goto, endSeq]

/-- A phase of INIT whose call succeeds after `latency` ticks (41_init.md R159). -/
theorem run_initPhase {p : Phase} {q : PinReq} {s : State} {latency : Nat} {l : Level} {e : List TickIn}
    (hlat : 1 ≤ latency) (hp : initPhase p = true) (hseq : s.seq = phaseCode p) (hq : phaseRequest p s = some q)
    (hc : s.callst = .issue) :
    Sys2Proof.core.run (latency + 1) (before (callTicks latency l ++ e) s) =
      .next (before e (initNext p (logCall q false l s))) := by
  have hx : exec (phaseInstr p) (waiting (answerTick l :: e) (before (callTicks latency l ++ e) s)) =
      .next (initNext p (logCall q false l (waiting (answerTick l :: e) s))) := by
    rw [waiting_before]
    exact exec_initPhase_ok hp ⟨(phaseRequest_waiting p _ s).trans hq, rfl, rfl⟩
  have hrun := run_call (s := before (callTicks latency l ++ e) s) hlat hseq ((phaseRequest_before p _ s).trans hq)
    hc rfl hx
  rwa [before_initNext hp] at hrun

/-- An INIT accepted in `s`, at the start of its phase `p`, with `calls` completed. -/
def initAt (p : Phase) (calls : List PinCall) (s : State) : State :=
  { goto p (initBegun s) with trace := s.trace ++ calls }

/-- An INIT accepted in `s` and ended successfully, with `calls` completed (41_init.md R156). -/
def initDone (calls : List PinCall) (s : State) : State :=
  { endSeq (initBegun s) with life := .active, trace := s.trace ++ calls }

theorem phaseRequest_initAt (p : Phase) (calls : List PinCall) (s : State) (p' : Phase) :
    phaseRequest p' (initAt p calls s) = phaseRequest p' s := by
  have hsame : SameConfig s (initAt p calls s) := ⟨rfl, rfl, rfl, rfl, rfl⟩
  exact phaseRequest_congr hsame p'

theorem initAt_begin (s : State) : initAt .iCfgSdata [] s = initBegun s := by
  rw [initAt, List.append_nil]
  rfl

theorem initNext_initAt {p p' : Phase} (hp : initPhase p = true) (hnext : callNext p = some p') (q : PinReq) (l : Level)
    (calls : List PinCall) (s : State) :
    initNext p (logCall q false l (initAt p calls s)) = initAt p' (calls ++ [⟨q, false, l⟩]) s := by
  rw [initAt, initAt, ← List.append_assoc]
  cases p <;> cases hp <;> cases hnext <;> rfl

theorem initNext_last (q : PinReq) (l : Level) (calls : List PinCall) (s : State) :
    initNext .iIdleClk (logCall q false l (initAt .iIdleClk calls s)) = initDone (calls ++ [⟨q, false, l⟩]) s := by
  rw [initAt, initDone, ← List.append_assoc]
  rfl

/-- A phase of INIT but the last leads to the next one, with its call completed (41_init.md R152 to R155). -/
theorem run_initAt {p p' : Phase} {q : PinReq} {s : State} {latency : Nat} {l : Level} {e : List TickIn}
    {calls : List PinCall} (hlat : 1 ≤ latency) (hp : initPhase p = true) (hnext : callNext p = some p')
    (hq : phaseRequest p s = some q) :
    Sys2Proof.core.run (latency + 1) (before (callTicks latency l ++ e) (initAt p calls s)) =
      .next (before e (initAt p' (calls ++ [⟨q, false, l⟩]) s)) := by
  rw [run_initPhase hlat hp rfl ((phaseRequest_initAt p calls s p).trans hq) rfl, initNext_initAt hp hnext]

/-- The tick of an idle block whose host access is the CMD write of INIT (40_sequencer.md R120, R122). -/
theorem step_init {s : State} {e : List TickIn} (hs : s.seq = 0x00#5) (hl : s.life ≠ .active) (hv : ConfigOk s)
    (hp : PinsFree s)
    (henv : s.env = { rst := false, rsp := none, acc := some (.write s.build.sicBase 4 0x00000001#32) } :: e) :
    step s = .next (before e (initBegun s)) := by
  have hin : tickIn s = { rst := false, rsp := none, acc := some (.write s.build.sicBase 4 0x00000001#32) } := by
    rw [tickIn, henv]
  have hr : rstNow s = false := congrArg TickIn.rst hin
  have hrsp : rspNow s = none := congrArg TickIn.rsp hin
  have hidle : decode (.uop s.seq) = .ok .idle := hs ▸ decode_phaseCode .idle
  obtain ⟨_, _, hcommand, _⟩ :=
    stepRunsPhaseThenHostAccess s s .idle (spurious_of_no_response hrsp) hr hidle rfl
  obtain ⟨hnext, _⟩ := hcommand 0x00000001#32 .init (congrArg TickIn.acc hin) (decode_encode (i := .init) rfl)
  rw [hnext _ (initStarts s hs hl hv hp), staleAfter_of_no_response hr hrsp, henv]
  rfl

/-- The calls of a successful INIT, as TRACE records them (41_init.md R158). -/
def initCalls (s : State) : List PinCall :=
  [⟨reqCfgSdata s, false, false⟩, ⟨reqCfgOut s.cfgLoad, false, false⟩, ⟨reqCfgOut s.cfgClk, false, false⟩,
   ⟨reqWrite s.cfgLoad true, false, false⟩, ⟨reqWrite s.cfgClk false, false, false⟩]

/-- The five phases of INIT, one after the other (41_init.md R159). -/
theorem run_init {s : State} {latency : Nat} {e : List TickIn} (hlat : 1 ≤ latency) :
    Sys2Proof.core.run (5 * (latency + 1))
        (before ((List.replicate 5 (callTicks latency false)).flatten ++ e) (initBegun s)) =
      .next (before e (initDone (initCalls s) s)) := by
  have hticks : 5 * (latency + 1) =
      latency + 1 + (latency + 1 + (latency + 1 + (latency + 1 + (latency + 1)))) := by omega
  have hinputs : (List.replicate 5 (callTicks latency false)).flatten ++ e =
      callTicks latency false ++ (callTicks latency false ++ (callTicks latency false ++
        (callTicks latency false ++ (callTicks latency false ++ e)))) := by
    simp [List.replicate]
  rw [hticks, hinputs, ← initAt_begin,
    run_add (run_initAt (p := .iCfgSdata) hlat rfl rfl rfl),
    run_add (run_initAt (p := .iCfgLoad) hlat rfl rfl rfl),
    run_add (run_initAt (p := .iCfgClk) hlat rfl rfl rfl),
    run_add (run_initAt (p := .iIdleLoad) hlat rfl rfl rfl),
    run_initPhase (p := .iIdleClk) hlat rfl rfl (phaseRequest_initAt _ _ s _) rfl, initNext_last]
  rfl

/-- Settles O58: the tick of acceptance, then the five phases. -/
theorem initCompletes : Obligations.InitCompletes := by
  intro s latency rest hlat hs hl hv hp henv
  refine ⟨before rest (initDone (initCalls s) s), initCalls s, ?_, rfl, rfl, rfl, rfl, rfl, rfl, rfl, rfl, rfl, rfl, rfl,
    rfl, rfl, rfl⟩
  rw [Nat.add_comm, run_succ (step_init hs hl hv hp henv), run_init hlat]

end Sys2Proof.Machine

/-! The load pulse and the clock pulse: their edges, the end of a clock pulse, and why the host cannot cut them
(42_pulses.md). -/

namespace Sys2Proof.Machine

open Sys2Proof.Safety

/-! ### The edges (42_pulses.md R171, R173, R176, R178) -/

/-- A phase that `callNext` lists runs the call primitive and, after a success, goes to the phase listed for it. -/
theorem exec_callNext {p p' : Phase} {s : State} {q : PinReq} (hnext : callNext p = some p')
    (hq : phaseRequest p s = some q) :
    ∃ g, exec (phaseInstr p) s = .next (callStep q (fun _ => goto p') g s) := by
  cases p <;> cases hnext <;> cases hq <;> exact ⟨_, rfl⟩

theorem exec_callNext_ok {p p' : Phase} {s : State} {q : PinReq} {l : Level} (hnext : callNext p = some p')
    (ha : Answered s p q false l) : exec (phaseInstr p) s = .next (goto p' (logCall q false l s)) := by
  obtain ⟨g, hx⟩ := exec_callNext hnext ha.request
  rw [hx, callStep_ok ha.waits ha.response]

/-- Settles O28: each edge's call succeeds, and the `goto` of its settle wait loads TMR. -/
theorem pulseEdgesAdvance : Obligations.PulseEdgesAdvance := by
  intro s l hc hr
  exact ⟨exec_callNext_ok (p := .ldFall) rfl ⟨rfl, hc, hr⟩, exec_callNext_ok (p := .ldRise) rfl ⟨rfl, hc, hr⟩,
    exec_callNext_ok (p := .ckRise) rfl ⟨rfl, hc, hr⟩, exec_callNext_ok (p := .ckFall) rfl ⟨rfl, hc, hr⟩⟩

/-! ### The end of a clock pulse (42_pulses.md R179) -/

theorem nextBit_of_lt {s : State} (h : s.bit.toNat + 1 < s.cfgWidth.toNat) :
    nextBit s = goto .smp { s with bit := s.bit + 1#7 } := by
  rw [nextBit, if_pos h]

theorem nextBit_of_le {s : State} (h : s.cfgWidth.toNat ≤ s.bit.toNat + 1) :
    nextBit s = goto .capture { s with bit := s.bit + 1#7 } := by
  rw [nextBit, if_neg (Nat.not_lt.mpr h)]

/-- Settles O32: CK_LOW_WAIT expires into `nextBit`, before and at the last position. -/
theorem clockPulseEnds : Obligations.ClockPulseEnds := by
  intro s ht _
  have hx := exec_settle_expire (p := .ckLowWait) rfl ht
  refine ⟨fun hmore => hx.trans ?_, fun hlast => hx.trans ?_⟩
  · exact congrArg Host.Outcome.next (nextBit_of_lt (s := { s with tmr := 0#32 }) hmore)
  · exact congrArg Host.Outcome.next (nextBit_of_le (s := { s with tmr := 0#32 }) hlast)

/-! ### A tick without its host access -/

/-- Without its host access a tick runs the same phase to the same state, and ends (40_sequencer.md R120). -/
theorem step_withoutAccess {p : Phase} {s s1 : State} (hs : spurious s = false) (hr : rstNow s = false)
    (hp : phaseOfCode s.seq = some p) (hx : exec (phaseInstr p) s = .next s1) :
    step (withoutAccess s) = .next (setStale (staleAfter s) (endTick none s1)) := by
  have hdecode : decode (.uop s.seq) = .ok (phaseInstr p) := phaseCode_of_phaseOfCode hp ▸ decode_phaseCode p
  have hphase : exec (phaseInstr p) (withoutAccess s) = .next (withInputs (withoutAccess s).env s.stale s1) := by
    have hblind := exec_phase_withInputs (p := p) (e := (withoutAccess s).env) (n := s.stale) (s := s) fun _ _ => rfl
    rwa [hx] at hblind
  obtain ⟨hquiet, _⟩ := stepRunsPhaseThenHostAccess (withoutAccess s) _ _ hs hr hdecode hphase
  obtain ⟨_, henv, _⟩ := exec_samePorts hx
  rw [hquiet rfl, endTick, henv]
  rfl

/-! ### What the host can do to a busy block -/

/-- A command to a busy block is rejected or deferred (40_sequencer.md R124, 43_acquire.md R202, 44_teardown.md R232). -/
theorem commandStep_busy {i : Instr} {s t : State} (hb : s.seq ≠ 0x00#5) (h : CommandStep s i t) :
    ∃ c cancel release, t = { s with rej := c, cancelPending := cancel, releasePending := release } := by
  cases h with
  | rejected | cancelDeferred | releaseDeferred => exact ⟨_, _, _, rfl⟩
  | initStarts hs | initInvalid hs | acqAll hs | acqBit hs | acqLoop hs | cancelNow hs | releaseNow hs
  | describe hs => exact absurd hs hb

/-- The host reaches REJ and the pending flags of a busy block, and nothing else: its configuration is locked
(10_state.md R26). -/
theorem hostStep_busy {s t : State} (hb : s.seq ≠ 0x00#5) (h : HostStep s t) :
    ∃ c cancel release, t = { s with rej := c, cancelPending := cancel, releasePending := release } := by
  cases h with
  | none | rejected => exact ⟨_, _, _, rfl⟩
  | command _ hc => exact commandStep_busy hb hc
  | width hw | pins hw =>
    obtain ⟨_, hidle⟩ := (cfgWritable_iff s).mp hw
    exact absurd hidle hb

/-! ### The host and the pulses (42_pulses.md R181) -/

/-- No phase of a pulse has IDLE for a successor (40_sequencer.md R136). -/
theorem idle_not_successor_of_pulse {c : BitVec 5}
    (h : (0x08 ≤ c.toNat ∧ c.toNat ≤ 0x0B) ∨ (0x0D ≤ c.toNat ∧ c.toNat ≤ 0x10)) : 0 ∉ successors c.toNat := by
  revert c
  decide

/-- Settles O52: the phase leaves a busy block, of which the host access reaches only REJ and the pending flags. -/
theorem pulseNotCutByHost : Obligations.PulseNotCutByHost := by
  intro s t t' hr hpulse h h'
  obtain ⟨hs, _⟩ := step_next h
  obtain ⟨p, s1, s2, rd, hp, hx, hhost, rfl⟩ := step_halves hr h
  have hgraph := phaseStep_successor (phaseCode_of_phaseOfCode hp) (phaseStep_of_exec hx)
  have hbusy : s1.seq ≠ 0x00#5 := by
    intro hidle
    rw [hidle] at hgraph
    exact idle_not_successor_of_pulse hpulse hgraph
  have hquiet : step (withoutAccess s) = .next t' := by
    rw [withoutAccess, hr]
    exact h'
  rw [step_withoutAccess hs hr hp hx] at hquiet
  cases hquiet
  obtain ⟨c, cancel, release, rfl⟩ := hostStep_busy hbusy hhost
  rfl

end Sys2Proof.Machine

/-! The calls of the running acquisition in TRACE (43_acquire.md R193, R206), along phases, commands and register
writes. -/

namespace Sys2Proof.Machine

open Sys2Proof.Safety

/-! ### The end of TRACE -/

/-- TRACE ends with the calls that phase `p` says the running acquisition has completed. -/
def CallsEnd (p : Phase) (s : State) : Prop := callsSoFar p s <:+ s.trace.map shape

theorem callsEnd_iff (p : Phase) (s : State) :
    CallsEnd p s ↔ ∃ before calls, s.trace = before ++ calls ∧ calls.map shape = callsSoFar p s := by
  constructor
  · rintro ⟨shapes, h⟩
    obtain ⟨before, calls, htrace, _, hcalls⟩ := List.map_eq_append_iff.mp h.symm
    exact ⟨before, calls, htrace, hcalls⟩
  · rintro ⟨before, calls, htrace, hcalls⟩
    exact ⟨before.map shape, by rw [htrace, List.map_append, hcalls]⟩

theorem traceInv_iff (s : State) :
    TraceInv s ↔ ∀ p, phaseOfCode s.seq = some p → acqPhase p = true → CallsEnd p s := by
  simp only [TraceInv, callsEnd_iff]

/-- A state whose SEQ holds the code of `p` and whose TRACE ends as `p` has it, if `p` belongs to an acquisition. -/
theorem trace_at {p : Phase} {t : State} (hs : t.seq = phaseCode p) (h : acqPhase p = true → CallsEnd p t) :
    TraceInv t := by
  rw [traceInv_iff]
  intro q hq
  rw [hs, phaseOfCode_phaseCode] at hq
  cases hq
  exact h

/-- One more completed call. -/
theorem callsEnd_snoc {p q : Phase} {s t : State} {c : PinCall} (h : CallsEnd p s) (htrace : t.trace = s.trace ++ [c])
    (hcalls : callsSoFar q t = callsSoFar p s ++ [shape c]) : CallsEnd q t := by
  rw [CallsEnd, htrace, hcalls, List.map_append]
  exact List.suffix_append_self_iff.mpr h

/-- No further call. -/
theorem callsEnd_of_eq {p q : Phase} {s t : State} (h : CallsEnd p s) (htrace : t.trace = s.trace)
    (hcalls : callsSoFar q t = callsSoFar p s) : CallsEnd q t := by
  rw [CallsEnd, htrace, hcalls]
  exact h

/-! ### What each phase leaves -/

/-- A call phase without an effect of its own and its successor belong to one sequence. -/
theorem acqPhase_callNext {p q : Phase} (hq : callNext p = some q) : acqPhase p = acqPhase q := by
  cases p <;> cases hq <;> rfl

/-- The call of an edge of a pulse is the next one (43_acquire.md R206). -/
theorem callsSoFar_advance {p q : Phase} {req : PinReq} {l : Level} {s : State} (hacq : acqPhase q = true)
    (hq : callNext p = some q) (hreq : phaseRequest p s = some req) :
    callsSoFar q (goto q (logCall req false l s)) = callsSoFar p s ++ [shape ⟨req, false, l⟩] := by
  cases p <;> cases hq <;> cases hreq
  case iCfgSdata | iCfgLoad | iCfgClk | iIdleLoad => cases hacq
  case ldFall | ldRise => rfl
  case ckRise | ckFall =>
    simp only [callsSoFar, List.append_assoc]
    rfl

/-- A settle wait makes no call, and the first shift position has BIT 0. -/
theorem callsSoFar_expire {p q : Phase} {s : State} (hq : waitNext p = some q) (hpi : PhaseInv p s) :
    callsSoFar q (goto q { s with tmr := 0#32 }) = callsSoFar p s := by
  cases p <;> cases hq
  case ldLowWait | ckHighWait => rfl
  case ldHighWait =>
    obtain ⟨_, hbit, _⟩ := hpi
    simp only [callsSoFar, acqCalls, goto_bit, hbit]
    exact List.append_nil _

/-- BIT names a bit of ACC while positions remain (43_acquire.md R192). -/
theorem bit_bounds {s : State} (hb : s.build.wf = true) (hv : cfgValid s = true)
    (hbit : s.bit.toNat < s.cfgWidth.toNat) : s.bit.toNat < s.build.wmax.toNat ∧ s.bit.toNat < 64 := by
  obtain ⟨_, hmax, _⟩ := (cfgValid_iff s).mp hv
  have h64 := (width_bounds hb hv).right
  omega

/-- The READ is the next call, and bit BIT of ACC is its level (43_acquire.md R192, R193). -/
theorem callsSoFar_sampled {s : State} {l : Level} (hmax : s.bit.toNat < s.build.wmax.toNat)
    (h64 : s.bit.toNat < 64) :
    callsSoFar .ckRise (goto .ckRise (accWrite s.bit.toNat l (logCall (reqRead s) false l s))) =
      callsSoFar .smp s ++ [shape ⟨reqRead s, false, l⟩] := by
  have hacc := accSet_getLsbD hmax h64 s.acc l
  have hprev : acqCalls s (accSet s.build.wmax.toNat s.acc s.bit.toNat l) s.bit.toNat =
      acqCalls s s.acc s.bit.toNat :=
    acqCalls_congr rfl rfl rfl fun i hi => by rw [hacc, if_neg (Nat.ne_of_lt hi)]
  have hread : sampled s (accSet s.build.wmax.toNat s.acc s.bit.toNat l) s.bit.toNat =
      shape ⟨reqRead s, false, l⟩ := by
    rw [sampled, hacc, if_pos rfl]
    rfl
  rw [callsSoFar, callsSoFar, ← hread, ← hprev]
  rfl

/-- BIT counts the completed position (42_pulses.md R179). -/
theorem callsSoFar_nextBit {p : Phase} {s : State} (hp : p = .smp ∨ p = .capture) (h64 : s.bit.toNat < 64) :
    callsSoFar p (nextBit s) = callsSoFar .ckLowWait s := by
  have hsucc : (nextBit s).bit.toNat = s.bit.toNat + 1 := by
    simp only [nextBit, goto_bit]
    bv_omega
  have hcalls : acqCalls (nextBit s) (nextBit s).acc (nextBit s).bit.toNat = callsSoFar .ckLowWait s := by
    rw [hsucc, acqCalls_succ]
    rfl
  rcases hp with rfl | rfl <;> exact hcalls

theorem traceInv_nextBit {s : State} (h64 : s.bit.toNat < 64) (h : CallsEnd .ckLowWait s) : TraceInv (nextBit s) := by
  refine trace_at (p := if s.bit.toNat + 1 < s.cfgWidth.toNat then .smp else .capture) rfl fun _ =>
    callsEnd_of_eq h rfl (callsSoFar_nextBit ?_ h64)
  split
  · exact .inl rfl
  · exact .inr rfl

/-- Every phase leaves TRACE as the phase it leads to says. -/
theorem phaseStep_traceInv {p : Phase} {s t : State} (hi : MachineInv s) (htrace : TraceInv s)
    (hp : phaseOfCode s.seq = some p) (h : PhaseStep s p t) : TraceInv t := by
  have hcalls := (traceInv_iff s).mp htrace p hp
  have hpi := phaseInv_of_machineInv hi hp
  have bounds : AcqInv s → s.bit.toNat < s.cfgWidth.toNat → s.bit.toNat < s.build.wmax.toNat ∧ s.bit.toNat < 64 :=
    fun hacq => bit_bounds hi.build (hi.active hacq.left)
  cases h with
  | idle | issue | hold | count | cadenceCount => exact htrace
  | initFault | acqFault | captureTorn | cadenceTorn => exact trace_at (p := .rel) rfl nofun
  | configured | captureEnd => exact trace_at (p := .idle) rfl nofun
  | released => exact trace_at (p := .idle) (relDone_seq _) nofun
  | advance hq ha =>
    exact trace_at rfl fun hacq =>
      callsEnd_snoc (hcalls ((acqPhase_callNext hq).trans hacq)) rfl (callsSoFar_advance hacq hq ha.request)
  | sampled =>
    obtain ⟨hacq, hbit, _⟩ := hpi
    obtain ⟨hmax, h64⟩ := bounds hacq hbit
    exact trace_at (p := .ckRise) rfl fun _ => callsEnd_snoc (hcalls rfl) rfl (callsSoFar_sampled hmax h64)
  | expire hq =>
    have hap : acqPhase p = true := by cases p <;> cases hq <;> rfl
    exact trace_at rfl fun _ => callsEnd_of_eq (hcalls hap) rfl (callsSoFar_expire hq hpi)
  | shifted =>
    obtain ⟨hacq, hbit, _⟩ := hpi
    exact traceInv_nextBit (s := { s with tmr := 0#32 }) (bounds hacq hbit).right (hcalls rfl)
  | captureLoop => exact trace_at (p := .cadenceWait) rfl fun _ => hcalls rfl
  | cadenceExpire => exact trace_at (p := .ldFall) rfl fun _ => List.nil_suffix

/-! ### What the host leaves -/

/-- An acquisition begins with no call completed, and no other command leads into one. -/
theorem commandStep_traceInv {i : Instr} {s t : State} (h : TraceInv s) (hc : CommandStep s i t) : TraceInv t := by
  cases hc with
  | rejected | cancelDeferred | releaseDeferred | describe => exact h
  | initStarts => exact trace_at (p := .iCfgSdata) rfl nofun
  | initInvalid hs => exact trace_at (p := .idle) hs nofun
  | acqAll | acqBit | acqLoop => exact trace_at (p := .ldFall) rfl fun _ => List.nil_suffix
  | cancelNow | releaseNow => exact trace_at (p := .rel) rfl nofun

theorem hostStep_traceInv {s t : State} (h : TraceInv s) (hhost : HostStep s t) : TraceInv t := by
  cases hhost with
  | none | rejected => exact h
  | command _ hc => exact commandStep_traceInv h hc
  | width hw | pins hw => exact trace_at (p := .idle) ((cfgWritable_iff s).mp hw).right nofun

/-- Every step keeps the calls of the running acquisition at the end of TRACE. -/
theorem step_traceInv {s t : State} (hi : MachineInv s) (htrace : TraceInv s) (h : step s = .next t) : TraceInv t := by
  rcases step_inversion h with ⟨_, rd, rfl⟩ | ⟨_, p, s1, s2, rd, hp, _, h1, h2, rfl⟩
  · exact trace_at (p := .idle) rfl nofun
  · have hleft := hostStep_traceInv (phaseStep_traceInv hi htrace hp h1) h2
    exact hleft

/-- Settles O42: each call is the next one that the phase says, and each sampled level stands in ACC. -/
theorem traceInvKept : Obligations.TraceInvKept := fun _ _ => step_traceInv

end Sys2Proof.Machine

/-! Acquisition, command by command and phase by phase: its start, its teardown, the sample, CAPTURE and the cadence
(43_acquire.md R190 to R202, 44_teardown.md R231, R232). -/

namespace Sys2Proof.Machine

open Sys2Proof.Safety

/-! ### Acceptance (40_sequencer.md R124) -/

theorem acceptIdle_accepted {legal : Bool} {s : State} (hs : s.seq = 0x00#5) (hl : legal = true)
    (f : State → Result) : acceptIdle legal f s = f (accepted s) := by
  rw [acceptIdle, (busy_eq_false_iff s).mpr hs, hl]
  rfl

theorem acceptTeardown_immediate {s : State} (hs : s.seq = 0x00#5) (hl : s.life = .active) (d i : State → State) :
    acceptTeardown d i s = .next (i (accepted s)) := by
  rw [acceptTeardown, (busy_eq_false_iff s).mpr hs, if_pos hl]
  rfl

theorem acceptTeardown_deferred {s : State} (hs : s.seq ≠ 0x00#5) (ha : inAcq s = true) (d i : State → State) :
    acceptTeardown d i s = .next (d (accepted s)) := by
  rw [acceptTeardown, (busy_eq_true_iff s).mpr hs, ha]
  rfl

theorem execAcqBit_accepted {idx : BitVec 7} {s : State} (hs : s.seq = 0x00#5) (hl : s.life = .active)
    (hidx : idx.toNat < s.cfgWidth.toNat) :
    execAcqBit idx s = .next (beginAcq .acqBit { accepted s with curIdx := idx.setWidth 6 }) := by
  rw [execAcqBit, (busy_eq_false_iff s).mpr hs, if_pos hl, if_pos hidx]
  rfl

/-- Settles O19: each of the three is accepted and begins at LD_FALL. -/
theorem acquisitionStarts : Obligations.AcquisitionStarts := by
  intro s hs hl
  have hlegal : decide (s.life = .active) = true := decide_eq_true hl
  exact ⟨acceptIdle_accepted hs hlegal fun s => .next (beginAcq .acqAll s), fun _ _ => execAcqBit_accepted hs hl,
    acceptIdle_accepted hs hlegal fun s => .next (beginAcq .acqLoop { s with loopMode := true })⟩

/-- Settles O20: both are accepted at once. -/
theorem immediateTeardown : Obligations.ImmediateTeardown :=
  fun _ hs hl => ⟨acceptTeardown_immediate hs hl _ _, acceptTeardown_immediate hs hl _ _⟩

/-- Settles O21: both are deferred. -/
theorem deferredTeardown : Obligations.DeferredTeardown := by
  intro s hs hrel hop
  have ha : inAcq s = true := (inAcq_eq_true_iff s).mpr ⟨hop, hrel⟩
  exact ⟨acceptTeardown_deferred hs ha _ _, acceptTeardown_deferred hs ha _ _⟩

/-- Settles O41: the levels that the invariant gives REL. -/
theorem releaseAtIdleLevels : Obligations.ReleaseAtIdleLevels := by
  intro t ht hs _ htdr
  exact reachable_lineInv ht .rel (by rw [hs]; rfl) htdr.symm

/-! ### CAPTURE and CADENCE_WAIT (43_acquire.md R194, R195, R199) -/

theorem takePending_cancel {s : State} (hc : s.cancelPending = true) (f : State → State) :
    takePending f s = goto .rel { s with tdr := .cancelled } := by
  rw [takePending, if_pos hc]

theorem takePending_release {s : State} (hc : s.cancelPending = false) (hr : s.releasePending = true)
    (f : State → State) : takePending f s = goto .rel { s with tdr := .released } := by
  rw [takePending, if_neg (Bool.eq_false_iff.mp hc), if_pos hr]

theorem takePending_none {s : State} (hn : NonePending s) (f : State → State) : takePending f s = f s := by
  obtain ⟨hc, hr⟩ := hn
  rw [takePending, if_neg (Bool.eq_false_iff.mp hc), if_neg (Bool.eq_false_iff.mp hr)]

theorem boundary_loop {s : State} (hn : NonePending s) (hl : s.loopMode = true) :
    boundary s = goto .cadenceWait s := by
  rw [boundary, takePending_none hn, if_pos hl]

theorem boundary_end {s : State} (hn : NonePending s) (hl : s.loopMode = false) : boundary s = endSeq s := by
  rw [boundary, takePending_none hn, if_neg (Bool.eq_false_iff.mp hl)]

theorem exec_capture (s : State) : exec .capture s = .next (boundary (latched s)) := rfl

theorem exec_cadenceWait (s : State) : exec .cadenceWait s = .next (takePending (waitStep startAcq) s) := rfl

/-- What CAPTURE latches, bit CUR_IDX of ACC written out. -/
theorem captured_eq (s : State) :
    captured s =
      if s.curOp = some .acqBit then (if s.acc.getLsbD s.curIdx.toNat then 1#64 else 0#64) else s.acc := by
  unfold captured
  cases s.acc.getLsbD s.curIdx.toNat <;> rfl

/-- Settles O33: the boundary after the latch, in the order of R195. -/
theorem captureLatches : Obligations.CaptureLatches := by
  intro s v hv
  rw [← captured_eq] at hv
  subst hv
  rw [exec_capture]
  refine ⟨fun hc => ?_, fun hc hr => ?_, fun hc hr hl => ?_, fun hc hr hl => ?_⟩
  · exact congrArg Host.Outcome.next (takePending_cancel (s := latched s) hc _)
  · exact congrArg Host.Outcome.next (takePending_release (s := latched s) hc hr _)
  · exact congrArg Host.Outcome.next (boundary_loop (s := latched s) ⟨hc, hr⟩ hl)
  · exact congrArg Host.Outcome.next (boundary_end (s := latched s) ⟨hc, hr⟩ hl)

/-- Settles O34: a pending teardown in the order of R199, else the timer primitive. -/
theorem cadenceWaits : Obligations.CadenceWaits := by
  intro s
  rw [exec_cadenceWait]
  refine ⟨fun hc => ?_, fun hc hr => ?_, fun hc hr ht => ?_, fun hc hr ht => ?_⟩
  · exact congrArg Host.Outcome.next (takePending_cancel hc _)
  · exact congrArg Host.Outcome.next (takePending_release hc hr _)
  · have hne : s.tmr ≠ 1#32 := by bv_omega
    rw [takePending_none ⟨hc, hr⟩, waitStep_count hne]
  · rw [takePending_none ⟨hc, hr⟩, waitStep_expire ht]
    rfl

/-! ### ACC as a number (43_acquire.md R192, R193) -/

/-- The number whose bit `i` is `lv i`, below `n`: the sum of R203. -/
def levelSum (lv : Nat → Level) (n : Nat) : Nat := ∑ i ∈ Finset.range n, if lv i then 2 ^ i else 0

theorem levelSum_succ (lv : Nat → Level) (n : Nat) :
    levelSum lv (n + 1) = levelSum lv n + if lv n then 2 ^ n else 0 :=
  Finset.sum_range_succ _ n

theorem levelSum_congr {a b : Nat → Level} {n : Nat} (h : ∀ i < n, a i = b i) : levelSum a n = levelSum b n :=
  Finset.sum_congr rfl fun i hi => by rw [h i (Finset.mem_range.mp hi)]

/-- A number is the sum of its bits. -/
theorem mod_two_pow_eq_levelSum (x n : Nat) : x % 2 ^ n = levelSum x.testBit n := by
  induction n with
  | zero => simp [levelSum, Nat.mod_one]
  | succ n ih =>
    have hbit : 2 ^ n * (x / 2 ^ n % 2) = if x.testBit n then 2 ^ n else 0 := by
      rw [Nat.testBit_eq_decide_div_mod_eq]
      rcases Nat.mod_two_eq_zero_or_one (x / 2 ^ n) with h | h <;> simp [h]
    rw [Nat.mod_pow_succ, ih, levelSum_succ, hbit]

theorem toNat_eq_levelSum {acc : BitVec 64} {n : Nat} (h : acc.toNat < 2 ^ n) : acc.toNat = levelSum acc.getLsbD n := by
  rw [← Nat.mod_eq_of_lt h, mod_two_pow_eq_levelSum]
  rfl

/-- The sample adds its bit to an accumulator that holds the bits below it (43_acquire.md R193). -/
theorem accSet_toNat {wmax n : Nat} {acc : BitVec 64} (l : Level) (hmax : n < wmax) (h64 : n < 64)
    (h : acc.toNat < 2 ^ n) : (accSet wmax acc n l).toNat = acc.toNat + if l then 2 ^ n else 0 := by
  have hbit := accSet_getLsbD hmax h64 acc l
  have hlow : levelSum (accSet wmax acc n l).getLsbD n = levelSum acc.getLsbD n :=
    levelSum_congr fun i hi => by rw [hbit, if_neg (Nat.ne_of_lt hi)]
  rw [toNat_eq_levelSum (accSet_lt l h64 h), levelSum_succ, hlow, ← toNat_eq_levelSum h, hbit, if_pos rfl]

theorem exec_smp_ok {s : State} {l : Level} (ha : Answered s .smp (reqRead s) false l) :
    exec .smp s = .next (goto .ckRise (accWrite s.bit.toNat l (logCall (reqRead s) false l s))) :=
  congrArg Host.Outcome.next (callStep_ok ha.waits ha.response _ _ _)

/-- Settles O29: the accumulator that the sample writes, bit by bit and as a number. -/
theorem sampleWritesBit : Obligations.SampleWritesBit := by
  intro s l hc hr hmax hmax64
  have h64 : s.bit.toNat < 64 := by omega
  exact ⟨accSet s.build.wmax.toNat s.acc s.bit.toNat l, accSet_getLsbD hmax h64 s.acc l, accSet_toNat l hmax h64,
    exec_smp_ok ⟨rfl, hc, hr⟩⟩

/-! ### The result (43_acquire.md R203) -/

/-- A boundary keeps what CAPTURE latched, and makes no call. -/
theorem boundary_keeps (s : State) :
    (boundary s).result = s.result ∧ (boundary s).count = s.count ∧ (boundary s).trace = s.trace := by
  unfold boundary
  rcases takePending_cases _ s with ⟨_, h⟩ | ⟨_, _, h⟩ | ⟨_, _, h⟩ <;> rw [h]
  · exact ⟨rfl, rfl, rfl⟩
  · exact ⟨rfl, rfl, rfl⟩
  · split <;> exact ⟨rfl, rfl, rfl⟩

/-- CAPTURE latches its result and counts, and makes no call. -/
theorem capture_keeps {s t : State} (h : exec .capture s = .next t) :
    t.result = captured s ∧ t.count = s.count + 1#8 ∧ t.trace = s.trace := by
  cases h
  exact boundary_keeps (latched s)

/-- The calls of an acquisition whose levels stand in `acc`, as R206 lists them. -/
theorem acqCalls_eq_acqShapes (s : State) (acc : BitVec 64) (n : Nat) :
    acqCalls s acc n = acqShapes s acc.getLsbD n := rfl

/-- An acquisition of `n` positions makes `2 + 3 n` calls (43_acquire.md R206). -/
theorem acqShapes_length (s : State) (lv : Nat → Level) (n : Nat) : (acqShapes s lv n).length = 2 + 3 * n := by
  simp [acqShapes, List.length_flatMap]
  omega

/-- Settles O43: at CAPTURE BIT is W, so TRACE ends with the whole acquisition, and its levels are the bits of ACC. -/
theorem captureResult : Obligations.CaptureResult := by
  intro s t hi htrace hs hx
  have hp : phaseOfCode s.seq = some .capture := by rw [hs]; rfl
  obtain ⟨_, hbit, hacc⟩ := phaseInv_of_machineInv hi hp
  rw [hbit] at hacc
  obtain ⟨before, calls, hsplit, hcalls⟩ := htrace .capture hp rfl
  have hshapes : calls.map shape = acqShapes s s.acc.getLsbD s.cfgWidth.toNat := by
    rw [hcalls, callsSoFar, hbit, acqCalls_eq_acqShapes]
  obtain ⟨hresult, _⟩ := capture_keeps hx
  rw [captured_eq] at hresult
  refine ⟨before, calls, s.acc.getLsbD, hsplit, hshapes, ?_, fun hop => ?_, fun hop => ?_, fun hop => ?_⟩
  · rw [← acqShapes_length s s.acc.getLsbD, ← hshapes, List.length_map]
  · rw [hresult, if_neg hop]
    exact toNat_eq_levelSum hacc
  · rwa [hresult, if_neg hop]
  · rw [hresult, if_pos hop]

end Sys2Proof.Machine

/-! ACQ_BIT beside ACQ_ALL: their steps differ only at CAPTURE (43_acquire.md R197, R205). -/

namespace Sys2Proof.Machine

open Sys2Proof.Safety

/-! ### The same block running ACQ_BIT -/

/-- The block of `s` with an ACQ_BIT of position `idx` as its running command. -/
def asAcqBit (idx : BitVec 6) (s : State) : State := { s with curOp := some .acqBit, curIdx := idx }

/-- `f` does on the block that runs an ACQ_BIT what it does on the block of `s`. -/
def OpBlindAt (idx : BitVec 6) (f : State → Result) (s : State) : Prop :=
  f (asAcqBit idx s) = andThen (f s) fun t => .next (asAcqBit idx t)

/-- An operation that neither reads nor changes the running command. -/
def OpBlind (idx : BitVec 6) (f : State → State) : Prop := ∀ s, f (asAcqBit idx s) = asAcqBit idx (f s)

theorem OpBlind.result {idx : BitVec 6} {f : State → State} (hf : OpBlind idx f) (s : State) :
    OpBlindAt idx (fun s => .next (f s)) s :=
  congrArg Host.Outcome.next (hf s)

/-! ### The phases of an acquisition -/

theorem goto_opBlind (idx : BitVec 6) (p : Phase) : OpBlind idx (goto p) := fun _ => rfl

theorem acqCall_opBlind {idx : BitVec 6} {req : PinReq} {f : Level → State → State} (hf : ∀ l, OpBlind idx (f l)) :
    OpBlind idx (acqCall req f) := by
  intro s
  unfold acqCall
  rcases callStep_cases req f (fatal .hardwareFault req.op) s with
    ⟨hc, h⟩ | ⟨hc, hr, h⟩ | ⟨l, hc, hr, h⟩ | ⟨l, hc, hr, h⟩ <;> rw [h]
  · exact callStep_issue (s := asAcqBit idx s) hc ..
  · exact callStep_hold (s := asAcqBit idx s) hc hr ..
  · rw [callStep_ok (s := asAcqBit idx s) hc hr]
    exact hf l (logCall req false l s)
  · rw [callStep_fault (s := asAcqBit idx s) hc hr]
    rfl

theorem waitStep_opBlind {idx : BitVec 6} {f : State → State} (hf : OpBlind idx f) : OpBlind idx (waitStep f) := by
  intro s
  rcases waitStep_cases f s with ⟨ht, h⟩ | ⟨ht, h⟩ <;> rw [h]
  · rw [waitStep_expire (s := asAcqBit idx s) ht]
    exact hf { s with tmr := 0#32 }
  · exact waitStep_count (s := asAcqBit idx s) ht f

theorem takePending_opBlind {idx : BitVec 6} {f : State → State} (hf : OpBlind idx f) :
    OpBlind idx (takePending f) := by
  intro s
  rcases takePending_cases f s with ⟨hc, h⟩ | ⟨hc, hr, h⟩ | ⟨hc, hr, h⟩ <;> rw [h]
  · exact takePending_cancel (s := asAcqBit idx s) hc f
  · exact takePending_release (s := asAcqBit idx s) hc hr f
  · rw [takePending_none (s := asAcqBit idx s) ⟨hc, hr⟩]
    exact hf s

/-- No acquisition phase but CAPTURE reads the running command (43_acquire.md R197). -/
theorem exec_phase_opBlind {p : Phase} (hp : acqPhase p = true) (hne : p ≠ .capture) (idx : BitVec 6) (s : State) :
    OpBlindAt idx (exec (phaseInstr p)) s := by
  have wait : ∀ q : Phase, OpBlind idx (waitStep (goto q)) := fun q => waitStep_opBlind (goto_opBlind idx q)
  have edge : ∀ (req : PinReq) (q : Phase), OpBlind idx (acqCall req fun _ => goto q) :=
    fun _ q => acqCall_opBlind fun _ => goto_opBlind idx q
  cases p
  case idle | iCfgSdata | iCfgLoad | iCfgClk | iIdleLoad | iIdleClk | rel => cases hp
  case capture => exact absurd rfl hne
  case ldFall | ldRise | ckRise | ckFall => exact (edge _ _).result s
  case ldLowWait | ldHighWait | ckHighWait => exact (wait _).result s
  case ckLowWait => exact (waitStep_opBlind (f := nextBit) fun _ => rfl).result s
  case smp =>
    exact (acqCall_opBlind (req := reqRead s) (f := fun l u => goto .ckRise (accWrite u.bit.toNat l u))
      fun _ _ => rfl).result s
  case cadenceWait => exact (takePending_opBlind (waitStep_opBlind (f := startAcq) fun _ => rfl)).result s

/-- What an acquisition phase but CAPTURE leaves: the running command, and a busy block. -/
theorem exec_phase_keepsOp {p : Phase} {s t : State} (hs : s.seq = phaseCode p) (hp : acqPhase p = true)
    (hne : p ≠ .capture) (h : exec (phaseInstr p) s = .next t) : t.curOp = s.curOp ∧ t.seq ≠ 0x00#5 := by
  have hstep := phaseStep_of_exec h
  refine ⟨?_, fun hidle => ?_⟩
  · cases hstep with
    | configured | released => cases hp
    | captureEnd => exact absurd rfl hne
    | idle | issue | hold | initFault | acqFault | advance | sampled | count | expire | shifted | captureTorn
    | captureLoop | cadenceTorn | cadenceCount | cadenceExpire => rfl
  · have hgraph := phaseStep_successor hs hstep
    rw [hidle, hs] at hgraph
    cases p
    case idle | iCfgSdata | iCfgLoad | iCfgClk | iIdleLoad | iIdleClk | rel => cases hp
    case capture => exact hne rfl
    all_goals revert hgraph; decide

/-! ### The host's half -/

theorem acceptIdle_busy {s : State} (hb : s.seq ≠ 0x00#5) (legal : Bool) (f : State → Result) :
    acceptIdle legal f s = .next (reject .busy s) := by
  rw [acceptIdle, (busy_eq_true_iff s).mpr hb]
  rfl

theorem acceptIdle_opBlind {s : State} (hb : s.seq ≠ 0x00#5) (idx : BitVec 6) (legal : Bool) (f : State → Result) :
    OpBlindAt idx (acceptIdle legal f) s := by
  rw [OpBlindAt, acceptIdle_busy hb, acceptIdle_busy (s := asAcqBit idx s) hb]
  rfl

/-- The table of acceptance asks whether an acquisition runs, not which one (40_sequencer.md R124). -/
theorem inAcq_asAcqBit {s : State} (hop : s.curOp = some .acqAll) (idx : BitVec 6) :
    inAcq (asAcqBit idx s) = inAcq s := by
  rw [Bool.eq_iff_iff, inAcq_eq_true_iff, inAcq_eq_true_iff]
  simp [acqOp, asAcqBit, hop]

theorem acceptTeardown_opBlind {s : State} (hop : s.curOp = some .acqAll) (hb : s.seq ≠ 0x00#5) {idx : BitVec 6}
    {d i : State → State} (hd : OpBlind idx d) : OpBlindAt idx (acceptTeardown d i) s := by
  have hbusy := (busy_eq_true_iff s).mpr hb
  have hbusy' : busy (asAcqBit idx s) = true := hbusy
  unfold OpBlindAt acceptTeardown
  rw [inAcq_asAcqBit hop, hbusy, hbusy']
  cases inAcq s
  · rfl
  · exact congrArg Host.Outcome.next (hd (accepted s))

/-- A command to a busy block does not read which acquisition runs. -/
theorem exec_command_opBlind {v : Word} {j : Instr} {s : State} (hj : decodeCommand v = .ok j)
    (hop : s.curOp = some .acqAll) (hb : s.seq ≠ 0x00#5) (idx : BitVec 6) : OpBlindAt idx (exec j) s := by
  rcases decodeCommand_command hj with rfl | rfl | ⟨k, rfl⟩ | rfl | rfl | rfl | rfl
  · exact acceptIdle_opBlind hb idx (decide (s.life ≠ .active)) performInit
  · exact acceptIdle_opBlind hb idx (decide (s.life = .active)) fun s => .next (beginAcq .acqAll s)
  · have hbusy := (busy_eq_true_iff s).mpr hb
    have hbusy' : busy (asAcqBit idx s) = true := hbusy
    simp only [OpBlindAt, exec, execAcqBit, hbusy, hbusy']
    rfl
  · exact acceptIdle_opBlind hb idx (decide (s.life = .active))
      fun s => .next (beginAcq .acqLoop { s with loopMode := true })
  · exact acceptTeardown_opBlind (d := deferCancel) hop hb fun _ => rfl
  · exact acceptIdle_opBlind hb idx true fun s => .next { s with result := describeWord s, done := true }
  · exact acceptTeardown_opBlind (d := deferRelease) hop hb fun _ => rfl

theorem writeReg_busy {s : State} (hb : s.seq ≠ 0x00#5) (r : HostReg) (v : Word) : writeReg r v s = s := by
  have hlocked : cfgWritable s = false := by
    rw [Bool.eq_false_iff, ne_eq, cfgWritable_iff]
    exact fun h => hb h.right
  cases r
  case cfgWidth | cfgPins => simp [writeReg, hlocked]
  all_goals rfl

theorem busWrite_opBlind {s : State} (hop : s.curOp = some .acqAll) (hb : s.seq ≠ 0x00#5) (idx : BitVec 6)
    (r : HostReg) (v : Word) : OpBlindAt idx (busWrite r v) s := by
  by_cases hr : r = .cmd
  · subst hr
    simp only [OpBlindAt, busWrite, acceptWord]
    cases hj : decodeCommand v with
    | ok j => exact exec_command_opBlind hj hop hb idx
    | error e => rfl
  · rw [OpBlindAt, busWrite_of_ne_cmd hr, busWrite_of_ne_cmd hr, writeReg_busy hb,
      writeReg_busy (s := asAcqBit idx s) hb]
    rfl

/-- No register shows the running command (10_state.md R23, R42), so the host's answers are the same. -/
theorem busAccess_opBlind {w : HostReg → Word → State → Result} {idx : BitVec 6} {s : State}
    (hw : ∀ r v, OpBlindAt idx (w r v) s) : OpBlindAt idx (busAccess w) s := by
  have hacc : accNow (asAcqBit idx s) = accNow s := rfl
  simp only [OpBlindAt, busAccess, hacc, show (asAcqBit idx s).build = s.build from rfl]
  cases accNow s with
  | none => rfl
  | some a =>
    cases a with
    | read addr size =>
      dsimp only
      cases target s.build addr size with
      | reg r => cases r <;> rfl
      | elsewhere => rfl
      | inadmissible => rfl
    | write addr size v =>
      dsimp only
      cases target s.build addr size with
      | reg r =>
        dsimp only
        rw [hw r v, andThen_assoc, andThen_assoc]
        rfl
      | elsewhere => rfl
      | inadmissible => rfl

/-! ### The whole tick -/

/-- A tick of an ACQ_ALL in a phase but CAPTURE is the tick of the ACQ_BIT in its place. -/
theorem step_asAcqBit {p : Phase} {s t : State} (hop : s.curOp = some .acqAll) (hseq : s.seq = phaseCode p)
    (hp : acqPhase p = true) (hne : p ≠ .capture) (hr : rstNow s = false) (h : step s = .next t) (idx : BitVec 6) :
    t.curOp = some .acqAll ∧ step (asAcqBit idx s) = .next (asAcqBit idx t) := by
  obtain ⟨hs, u, hu, ⟨hrst, _⟩ | ⟨_, q, s1, hq, hx, hbus⟩⟩ := step_cases h
  · rw [hr] at hrst
    cases hrst
  · rw [hseq, phaseOfCode_phaseCode] at hq
    cases hq
    obtain ⟨hkeep, hbusy⟩ := exec_phase_keepsOp hseq hp hne hx
    have hop1 : s1.curOp = some .acqAll := hkeep.trans hop
    have hphase : exec (phaseInstr p) (asAcqBit idx s) = .next (asAcqBit idx s1) := by
      rw [exec_phase_opBlind hp hne, hx]
      rfl
    have hhost : busAccess busWrite (asAcqBit idx s1) = .next (asAcqBit idx u) := by
      rw [busAccess_opBlind (busWrite_opBlind hop1 hbusy idx), hbus]
      rfl
    have hdecode : decode (.uop s.seq) = .ok (phaseInstr p) := hseq ▸ decode_phaseCode p
    refine ⟨?_, ?_⟩
    · obtain ⟨s2, rd, hh, rfl⟩ := hostStep_of_busAccess hbus
      obtain ⟨_, _, _, rfl⟩ := hostStep_busy hbusy hh
      rw [hu]
      exact hop1
    · rw [step_of (s := asAcqBit idx s) hs hr hdecode hphase, hhost, hu]
      rfl

/-- Settles O55: before CAPTURE no phase, no command to a busy block and no register reads the running command; CAPTURE
latches one bit for ACQ_BIT and the whole of ACC for ACQ_ALL. -/
theorem acqBitFollowsAcqAll : Obligations.AcqBitFollowsAcqAll := by
  intro s t idx hop
  refine ⟨fun p hp hacq hne hr h => ?_, fun t' hx hx' => ?_⟩
  · obtain ⟨hkeep, hstep⟩ := step_asAcqBit hop (phaseCode_of_phaseOfCode hp) hacq hne hr h idx
    exact ⟨hkeep, hstep, rfl⟩
  · have hnot : s.curOp ≠ some .acqBit := by simp [hop]
    obtain ⟨hresult, hcount, htrace⟩ := capture_keeps hx
    obtain ⟨hresult', hcount', htrace'⟩ := capture_keeps hx'
    rw [captured_eq, if_neg hnot] at hresult
    rw [captured_eq, if_pos rfl] at hresult'
    exact ⟨by rw [hresult', hresult], htrace'.trans htrace.symm, hcount'.trans hcount.symm⟩

end Sys2Proof.Machine

/-! A whole acquisition, tick by tick: the load pulse, the shift positions and CAPTURE (43_acquire.md R203, R206,
R207). -/

namespace Sys2Proof.Machine

open Sys2Proof.Safety

/-! ### A settle wait without any input -/

theorem before_settleExpiry (p : Phase) (e f : List TickIn) (s : State) :
    before e (settleExpiry p { before f s with tmr := 0#32 }) = before e (settleExpiry p { s with tmr := 0#32 }) := by
  cases p <;> rfl

/-- A settle wait entered with TMR = n + 1 expires in its last tick (40_sequencer.md R131). -/
theorem run_settle {p : Phase} (hp : settlePhase p = true) {n : Nat} {s : State} (hseq : s.seq = phaseCode p)
    (ht : s.tmr.toNat = n + 1) (e : List TickIn) :
    Sys2Proof.core.run (n + 1) (before (quietTicks (n + 1) ++ e) s) =
      .next (before e (settleExpiry p { s with tmr := 0#32 })) := by
  induction n generalizing s with
  | zero =>
    have hone : s.tmr = 1#32 := BitVec.eq_of_toNat_eq ht
    have hx := exec_settle_expire hp (s := before (quietTicks 1 ++ e) s) hone
    have hstep := step_quiet (s := before (quietTicks 1 ++ e) s) hseq rfl hx
    rw [run_succ hstep, before_settleExpiry]
    rfl
  | succ n ih =>
    have htwo : 2 ≤ s.tmr.toNat := by omega
    have hx := exec_settle_count hp (s := before (quietTicks (n + 2) ++ e) s) htwo
    have hless : (s.tmr - 1#32).toNat = n + 1 := by bv_omega
    have hstep := step_quiet (s := before (quietTicks (n + 2) ++ e) s) hseq rfl hx
    rw [run_succ hstep]
    exact ih (s := { s with tmr := s.tmr - 1#32 }) hseq hless

/-! ### An edge and its settle wait -/

/-- The block of `s` after the call `q` of an edge and the settle wait `w` behind it. -/
def afterEdge (w : Phase) (q : PinReq) (s : State) : State :=
  settleExpiry w { goto w (logCall q false false s) with tmr := 0#32 }

theorem settle_of_acq_callNext {p w : Phase} (hp : acqPhase p = true) (hw : callNext p = some w) (c : Config) :
    settlePhase w = true ∧ timerLoad w c = some c.nSettle := by
  cases p <;> cases hp <;> cases hw <;> exact ⟨rfl, rfl⟩

/-- An edge whose call is answered after `latency` ticks, and its settle wait (42_pulses.md R171 to R179). -/
theorem run_edge {p w : Phase} {q : PinReq} {s : State} {latency : Nat} {e : List TickIn} (hlat : 1 ≤ latency)
    (hb : s.build.wf = true) (hp : acqPhase p = true) (hw : callNext p = some w) (hseq : s.seq = phaseCode p)
    (hq : phaseRequest p s = some q) (hc : s.callst = .issue)
    (henv : s.env = callTicks latency false ++ (quietTicks s.build.nSettle.toNat ++ e)) :
    Sys2Proof.core.run (latency + 1 + s.build.nSettle.toNat) s = .next (before e (afterEdge w q s)) := by
  obtain ⟨hsettle, hload⟩ := settle_of_acq_callNext hp hw s.build
  obtain ⟨n, hn⟩ : ∃ n, s.build.nSettle.toNat = n + 1 := by
    have hne := nSettle_ne_zero hb
    exact Nat.exists_eq_succ_of_ne_zero fun h0 => hne (BitVec.eq_of_toNat_eq h0)
  rw [hn] at henv ⊢
  have hx := exec_callNext_ok hw
    (s := waiting (answerTick false :: (quietTicks (n + 1) ++ e)) s) (l := false)
    ⟨(phaseRequest_waiting p _ s).trans hq, rfl, rfl⟩
  have htmr : (goto w (logCall q false false s)).tmr.toNat = n + 1 := by
    rw [goto_tmr, logCall, hload]
    exact hn
  rw [run_add (run_call hlat hseq hq hc henv hx)]
  exact run_settle hsettle (s := goto w (logCall q false false s)) rfl htmr e

/-- `run_edge` from a block before its inputs. -/
theorem run_edge_before {p w : Phase} {q : PinReq} {s : State} {latency : Nat} {e : List TickIn} (hlat : 1 ≤ latency)
    (hb : s.build.wf = true) (hp : acqPhase p = true) (hw : callNext p = some w) (hseq : s.seq = phaseCode p)
    (hq : phaseRequest p s = some q) (hc : s.callst = .issue) :
    Sys2Proof.core.run (latency + 1 + s.build.nSettle.toNat)
        (before (callTicks latency false ++ (quietTicks s.build.nSettle.toNat ++ e)) s) =
      .next (before e (afterEdge w q s)) := by
  have hrun := run_edge (s := before (callTicks latency false ++ (quietTicks s.build.nSettle.toNat ++ e)) s) hlat hb hp
    hw hseq ((phaseRequest_before p _ s).trans hq) hc rfl
  have hsame := before_settleExpiry w e (callTicks latency false ++ (quietTicks s.build.nSettle.toNat ++ e))
    (goto w (logCall q false false s))
  exact hrun.trans (congrArg Host.Outcome.next hsame)

/-! ### The accumulator after n samples -/

theorem levelSum_lt (lv : Nat → Level) (n : Nat) : levelSum lv n < 2 ^ n := by
  induction n with
  | zero => exact Nat.zero_lt_one
  | succ n ih =>
    rw [levelSum_succ, Nat.pow_succ]
    split <;> omega

theorem levelSum_toNat (lv : Nat → Level) {n : Nat} (h64 : n ≤ 64) :
    (BitVec.ofNat 64 (levelSum lv n)).toNat = levelSum lv n := by
  have hlt : levelSum lv n < 2 ^ 64 := (levelSum_lt lv n).trans_le (Nat.pow_le_pow_right (by decide) h64)
  rw [BitVec.toNat_ofNat, Nat.mod_eq_of_lt hlt]

/-- One more sample (43_acquire.md R193). -/
theorem accSet_levelSum (lv : Nat → Level) {wmax n : Nat} (hmax : n < wmax) (h64 : n < 64) :
    accSet wmax (BitVec.ofNat 64 (levelSum lv n)) n (lv n) = BitVec.ofNat 64 (levelSum lv (n + 1)) := by
  have hsum := levelSum_toNat lv h64.le
  have hlt : (BitVec.ofNat 64 (levelSum lv n)).toNat < 2 ^ n := by
    rw [hsum]
    exact levelSum_lt lv n
  apply BitVec.eq_of_toNat_eq
  rw [accSet_toNat (lv n) hmax h64 hlt, hsum, levelSum_toNat lv h64, levelSum_succ]

/-! ### The load pulse and the shift positions -/

/-- The calls of shift position `i` whose READ returns `lv i`, as TRACE records them. -/
def positionRecord (lv : Nat → Level) (s : State) (i : Nat) : List PinCall :=
  [⟨reqRead s, false, lv i⟩, ⟨reqWrite s.cfgClk true, false, false⟩, ⟨reqWrite s.cfgClk false, false, false⟩]

/-- The calls of the load pulse and of `n` shift positions, as TRACE records them. -/
def acqRecord (lv : Nat → Level) (n : Nat) (s : State) : List PinCall :=
  [⟨reqWrite s.cfgLoad false, false, false⟩, ⟨reqWrite s.cfgLoad true, false, false⟩] ++
    (List.range n).flatMap (positionRecord lv s)

theorem acqRecord_succ (lv : Nat → Level) (n : Nat) (s : State) :
    acqRecord lv (n + 1) s = acqRecord lv n s ++ positionRecord lv s n := by
  simp [acqRecord, List.range_succ]

/-- The record shows the calls of R206. -/
theorem acqRecord_shape (lv : Nat → Level) (n : Nat) (s : State) :
    (acqRecord lv n s).map shape = acqShapes s lv n := by
  rw [acqRecord, List.map_append, List.map_flatMap]
  rfl

/-- The acquisition begun in `s` at shift position `n`, or at CAPTURE after the last one, when the READs before it
returned `lv`. -/
def atPosition (lv : Nat → Level) (n : Nat) (s : State) : State :=
  { s with
    seq := phaseCode (if n < s.cfgWidth.toNat then .smp else .capture), callst := .issue, tmr := 0#32,
    acc := BitVec.ofNat 64 (levelSum lv n), bit := BitVec.ofNat 7 n, trace := s.trace ++ acqRecord lv n s }

@[simp] theorem atPosition_build (lv : Nat → Level) (n : Nat) (s : State) : (atPosition lv n s).build = s.build := rfl
@[simp] theorem atPosition_callst (lv : Nat → Level) (n : Nat) (s : State) : (atPosition lv n s).callst = .issue := rfl

/-- The block after its load pulse. -/
def afterLoadPulse (s : State) : State :=
  afterEdge .ldHighWait (reqWrite s.cfgLoad true) (afterEdge .ldLowWait (reqWrite s.cfgLoad false) s)

/-- The block after a clock pulse. -/
def afterClockPulse (s : State) : State :=
  afterEdge .ckLowWait (reqWrite s.cfgClk false) (afterEdge .ckHighWait (reqWrite s.cfgClk true) s)

/-- The load pulse leads to the first position (42_pulses.md R171 to R174). -/
theorem afterLoadPulse_eq {s : State} (lv : Nat → Level) (hw : 1 ≤ s.cfgWidth.toNat) (hacc : s.acc = 0#64)
    (hbit : s.bit = 0#7) :
    afterLoadPulse s = atPosition lv 0 s := by
  have hacc0 : BitVec.ofNat 64 (levelSum lv 0) = s.acc := by
    rw [hacc]
    rfl
  have hbit0 : BitVec.ofNat 7 0 = s.bit := hbit.symm
  rw [atPosition, hacc0, hbit0, if_pos (Nat.lt_of_lt_of_le Nat.zero_lt_one hw)]
  simp only [afterLoadPulse, afterEdge, settleExpiry, goto, logCall, List.append_assoc]
  rfl

/-- The ticks of the load pulse (43_acquire.md R207). -/
theorem run_loadPulse {s : State} {latency : Nat} {e : List TickIn} (lv : Nat → Level) (hlat : 1 ≤ latency)
    (hb : s.build.wf = true) (hw : 1 ≤ s.cfgWidth.toNat) (hseq : s.seq = 0x08#5) (hc : s.callst = .issue)
    (hacc : s.acc = 0#64) (hbit : s.bit = 0#7)
    (henv : s.env = callTicks latency false ++ (quietTicks s.build.nSettle.toNat ++
      (callTicks latency false ++ (quietTicks s.build.nSettle.toNat ++ e)))) :
    Sys2Proof.core.run (2 * (latency + 1) + 2 * s.build.nSettle.toNat) s = .next (before e (atPosition lv 0 s)) := by
  have hticks : 2 * (latency + 1) + 2 * s.build.nSettle.toNat =
      latency + 1 + s.build.nSettle.toNat + (latency + 1 + s.build.nSettle.toNat) := by omega
  rw [hticks, run_add (run_edge (p := .ldFall) hlat hb rfl rfl hseq rfl hc henv), ← afterLoadPulse_eq lv hw hacc hbit]
  exact run_edge_before (p := .ldRise) (s := afterEdge .ldLowWait (reqWrite s.cfgLoad false) s) hlat hb rfl rfl rfl
    rfl rfl

/-- The block after a successful READ of level `l` (43_acquire.md R192). -/
def afterSample (l : Level) (s : State) : State :=
  goto .ckRise (accWrite s.bit.toNat l (logCall (reqRead s) false l s))

@[simp] theorem afterSample_build (l : Level) (s : State) : (afterSample l s).build = s.build := rfl
@[simp] theorem afterSample_seq (l : Level) (s : State) : (afterSample l s).seq = 0x0D#5 := rfl
@[simp] theorem afterSample_callst (l : Level) (s : State) : (afterSample l s).callst = .issue := rfl

/-- The ticks of a sample (43_acquire.md R207). -/
theorem run_sample {s : State} {latency : Nat} {l : Level} {e : List TickIn} (hlat : 1 ≤ latency)
    (hseq : s.seq = 0x0C#5) (hc : s.callst = .issue) :
    Sys2Proof.core.run (latency + 1) (before (callTicks latency l ++ e) s) = .next (before e (afterSample l s)) := by
  have hx := exec_smp_ok (s := waiting (answerTick l :: e) s) (l := l) ⟨rfl, rfl, rfl⟩
  have hrun := run_call (p := .smp) (s := before (callTicks latency l ++ e) s)
    (t := afterSample l (waiting (answerTick l :: e) s)) hlat hseq rfl hc rfl hx
  exact hrun

/-- A sample and a clock pulse lead to the next position, or to CAPTURE (43_acquire.md R193, 42_pulses.md R179). -/
theorem afterClockPulse_sample {s : State} (lv : Nat → Level) {n : Nat} (hn : n < s.build.wmax.toNat) (h64 : n < 64) :
    afterClockPulse (afterSample (lv n) (atPosition lv n s)) = atPosition lv (n + 1) s := by
  have hbit : (BitVec.ofNat 7 n).toNat = n := by rw [BitVec.toNat_ofNat, Nat.mod_eq_of_lt (by omega)]
  have hsucc : BitVec.ofNat 7 n + 1#7 = BitVec.ofNat 7 (n + 1) := (BitVec.ofNat_add n 1).symm
  have hacc : accSet s.build.wmax.toNat (BitVec.ofNat 64 (levelSum lv n)) n (lv n) =
      BitVec.ofNat 64 (levelSum lv (n + 1)) := accSet_levelSum lv hn h64
  have htrace : s.trace ++ acqRecord lv (n + 1) s = s.trace ++ acqRecord lv n s ++ positionRecord lv s n := by
    rw [acqRecord_succ, List.append_assoc]
  have hnext : timerLoad (if n + 1 < s.cfgWidth.toNat then .smp else .capture) s.build = none := by
    split <;> rfl
  unfold atPosition
  rw [htrace, ← hacc, ← hsucc]
  simp only [afterClockPulse, afterEdge, settleExpiry, nextBit, afterSample, accWrite, goto, logCall, hbit, hnext,
    List.append_assoc]
  rfl

/-- The two edges of a clock pulse (42_pulses.md R176 to R179). -/
theorem run_clockPulse {s : State} {latency : Nat} {e : List TickIn} (hlat : 1 ≤ latency) (hb : s.build.wf = true)
    (hseq : s.seq = 0x0D#5) (hc : s.callst = .issue) :
    Sys2Proof.core.run (latency + 1 + s.build.nSettle.toNat + (latency + 1 + s.build.nSettle.toNat))
        (before (callTicks latency false ++ (quietTicks s.build.nSettle.toNat ++
          (callTicks latency false ++ (quietTicks s.build.nSettle.toNat ++ e)))) s) =
      .next (before e (afterClockPulse s)) := by
  rw [run_add (run_edge_before (p := .ckRise) hlat hb rfl rfl hseq rfl hc)]
  exact run_edge_before (p := .ckFall) (s := afterEdge .ckHighWait (reqWrite s.cfgClk true) s) hlat hb rfl rfl rfl
    rfl rfl

/-- The ticks of one shift position (43_acquire.md R207). -/
theorem run_position {s : State} {latency : Nat} {e : List TickIn} {lv : Nat → Level} {n : Nat} (hlat : 1 ≤ latency)
    (hb : s.build.wf = true) (hmax : s.cfgWidth.toNat ≤ s.build.wmax.toNat) (h64 : s.cfgWidth.toNat ≤ 64)
    (hn : n < s.cfgWidth.toNat) :
    Sys2Proof.core.run (3 * (latency + 1) + 2 * s.build.nSettle.toNat)
        (before (bitTicks s.build.nSettle.toNat latency lv n ++ e) (atPosition lv n s)) =
      .next (before e (atPosition lv (n + 1) s)) := by
  have hticks : 3 * (latency + 1) + 2 * s.build.nSettle.toNat =
      latency + 1 + (latency + 1 + s.build.nSettle.toNat + (latency + 1 + s.build.nSettle.toNat)) := by omega
  have hseq : (atPosition lv n s).seq = 0x0C#5 := by
    rw [atPosition, if_pos hn]
    rfl
  rw [hticks, bitTicks, ← afterClockPulse_sample lv (Nat.lt_of_lt_of_le hn hmax) (Nat.lt_of_lt_of_le hn h64)]
  simp only [List.append_assoc]
  have hwf : (afterSample (lv n) (atPosition lv n s)).build.wf = true := by simpa using hb
  have hpulse := run_clockPulse (e := e) hlat hwf (afterSample_seq _ _) (afterSample_callst _ _)
  simp only [afterSample_build, atPosition_build] at hpulse
  rw [run_add (run_sample hlat hseq (atPosition_callst _ _ _)), hpulse]

/-- The ticks of the first `n` shift positions. -/
theorem run_positions {s : State} {latency : Nat} {lv : Nat → Level} (hlat : 1 ≤ latency) (hb : s.build.wf = true)
    (hmax : s.cfgWidth.toNat ≤ s.build.wmax.toNat) (h64 : s.cfgWidth.toNat ≤ 64) {n : Nat}
    (hn : n ≤ s.cfgWidth.toNat) (e : List TickIn) :
    Sys2Proof.core.run (n * (3 * (latency + 1) + 2 * s.build.nSettle.toNat))
        (before ((List.range n).flatMap (bitTicks s.build.nSettle.toNat latency lv) ++ e) (atPosition lv 0 s)) =
      .next (before e (atPosition lv n s)) := by
  induction n generalizing e with
  | zero =>
    rw [Nat.zero_mul]
    rfl
  | succ n ih =>
    have hinputs : (List.range (n + 1)).flatMap (bitTicks s.build.nSettle.toNat latency lv) ++ e =
        (List.range n).flatMap (bitTicks s.build.nSettle.toNat latency lv) ++
          (bitTicks s.build.nSettle.toNat latency lv n ++ e) := by
      simp [List.range_succ]
    rw [hinputs, Nat.succ_mul, run_add (ih (Nat.le_of_succ_le hn) _)]
    exact run_position hlat hb hmax h64 hn

/-! ### A whole acquisition -/

/-- The tick of CAPTURE of an acquisition that neither loops nor is cancelled or released (43_acquire.md R194, R195). -/
theorem step_capture_end {s : State} {e : List TickIn} (hseq : s.seq = 0x11#5) (hn : NonePending s)
    (hl : s.loopMode = false) : step (before (quietTicks 1 ++ e) s) = .next (before e (endSeq (latched s))) := by
  have hx : exec (phaseInstr .capture) (before (quietTicks 1 ++ e) s) =
      .next (endSeq (latched (before (quietTicks 1 ++ e) s))) :=
    congrArg Host.Outcome.next (boundary_end (s := latched (before (quietTicks 1 ++ e) s)) hn hl)
  have hstep := step_quiet (p := .capture) (s := before (quietTicks 1 ++ e) s) hseq rfl hx
  exact hstep

/-- Settles O59: the load pulse, W shift positions, and the tick of CAPTURE. -/
theorem acquisitionCompletes : Obligations.AcquisitionCompletes := by
  intro s latency lv rest hb hlat hw hmax hseq hc hop hacc hbit hloop hcancel hrelease henv
  have h64 : s.cfgWidth.toNat ≤ 64 := by
    simp only [Config.wf, Bool.and_eq_true, decide_eq_true_iff] at hb
    omega
  simp only [acqTicks, List.append_assoc] at henv
  have hload := run_loadPulse lv hlat hb hw hseq hc hacc hbit henv
  have hrun := (run_add hload _).trans (run_positions hlat hb hmax h64 (Nat.le_refl _) (quietTicks 1 ++ rest))
  have hcapture : (atPosition lv s.cfgWidth.toNat s).seq = 0x11#5 := by
    rw [atPosition, if_neg (Nat.lt_irrefl _)]
    rfl
  have hstep := step_capture_end (s := atPosition lv s.cfgWidth.toNat s) (e := rest) hcapture ⟨hcancel, hrelease⟩
    hloop
  have hresult : (captured (atPosition lv s.cfgWidth.toNat s)).toNat = levelSum lv s.cfgWidth.toNat := by
    have hall : (atPosition lv s.cfgWidth.toNat s).curOp ≠ some .acqBit := by simp [atPosition, hop]
    rw [captured, if_neg hall]
    exact levelSum_toNat lv h64
  refine ⟨⟨_, hrun, hcapture, rfl, rfl⟩, _, acqRecord lv s.cfgWidth.toNat s, (run_add hrun 1).trans (run_succ hstep 0),
    rfl, acqRecord_shape lv _ s, hresult, rfl, rfl, rfl, rfl, rfl, rfl⟩

end Sys2Proof.Machine

/-! The marks of TRACE (44_teardown.md R235) along phases, commands and register writes, and the counts that follow. -/

namespace Sys2Proof.Machine

open Sys2Proof.Safety

/-! ### Alternating marks -/

/-- The marks alternate, beginning with a CFG_IN, and the last CFG_IN is unmatched exactly if `unmatched` is true. -/
def Alternates (unmatched : Bool) (ms : List Bool) : Prop :=
  ∃ k, ms = (List.replicate k [true, false]).flatten ++ (if unmatched then [true] else [])

theorem markInv_iff (s : State) : MarkInv s ↔ Alternates (configured s) (marks s.trace) := Iff.rfl

theorem Alternates.append_cfgIn {ms : List Bool} (h : Alternates false ms) : Alternates true (ms ++ [true]) := by
  obtain ⟨k, rfl⟩ := h
  exact ⟨k, by simp⟩

theorem Alternates.append_release {ms : List Bool} (h : Alternates true ms) : Alternates false (ms ++ [false]) := by
  obtain ⟨k, rfl⟩ := h
  exact ⟨k + 1, by simp [List.replicate_succ']⟩

theorem Alternates.count {unmatched : Bool} {ms : List Bool} (h : Alternates unmatched ms) :
    ms.count true = ms.count false + unmatched.toNat := by
  obtain ⟨k, rfl⟩ := h
  have hpairs (b : Bool) : (List.replicate k [true, false]).flatten.count b = k := by
    cases b <;> simp [List.count_flatten]
  cases unmatched <;> simp [List.count_append, hpairs]

/-! ### The mark of a call -/

/-- The marks that the completed call of a phase adds to TRACE (41_init.md R152, 44_teardown.md R233). -/
def callMarks : Phase → List Bool
  | .iCfgSdata => [true]
  | .rel => [false]
  | .idle | .iCfgLoad | .iCfgClk | .iIdleLoad | .iIdleClk | .ldFall | .ldLowWait | .ldRise | .ldHighWait | .smp
  | .ckRise | .ckHighWait | .ckFall | .ckLowWait | .capture | .cadenceWait => []

theorem marks_call {p : Phase} {s : State} {req : PinReq} (hreq : phaseRequest p s = some req) (f : Bool) (l : Level) :
    marks (s.trace ++ [⟨req, f, l⟩]) = marks s.trace ++ callMarks p := by
  rw [marks_snoc]
  cases p <;> cases hreq <;> rfl

/-! ### The configured states -/

theorem configured_of_active {s : State} (h : s.life = .active) : configured s = true := by
  simp [configured, h]

theorem configured_of_rel {s : State} (h : s.seq = 0x13#5) : configured s = true := by
  simp [configured, h]

theorem configured_of_idle {s : State} (h : s.seq = 0x00#5) : configured s = decide (s.life = .active) := by
  simp [configured, h]

/-- While a sequence runs, the pins are configured in every phase but the one that begins to configure them. -/
theorem configured_of_phase {p : Phase} {s : State} (hi : MachineInv s) (hp : phaseOfCode s.seq = some p)
    (hidle : p ≠ .idle) : configured s = decide (p ≠ .iCfgSdata) := by
  have hseq := phaseCode_of_phaseOfCode hp
  have hpi := phaseInv_of_machineInv hi hp
  cases p
  case idle => exact absurd rfl hidle
  case rel => exact configured_of_rel hseq
  case iCfgSdata | iCfgLoad | iCfgClk | iIdleLoad | iIdleClk =>
    obtain ⟨_, hl, _⟩ := hpi
    simp [configured, hseq, hl, phaseCode]
  all_goals exact configured_of_active (acqInv_of_phaseInv rfl hpi).left

/-! ### What each phase leaves -/

/-- A tick of an ACTIVE lifetime that makes no call. -/
theorem markInv_of_active {s t : State} (hm : MarkInv s) (hs : s.life = .active) (ht : t.life = .active)
    (htrace : t.trace = s.trace) : MarkInv t := by
  rw [markInv_iff, configured_of_active ht, htrace, ← configured_of_active hs]
  exact hm

/-- A call other than the RELEASE leaves the pins configured: CFG_IN begins that, and the other calls find it so. -/
theorem markInv_of_call {p : Phase} {s t : State} {req : PinReq} {f : Bool} {l : Level} (hi : MachineInv s)
    (hm : MarkInv s) (hp : phaseOfCode s.seq = some p) (ha : Answered s p req f l) (hrel : p ≠ .rel)
    (htrace : t.trace = s.trace ++ [⟨req, f, l⟩]) (ht : configured t = true) : MarkInv t := by
  have hidle : p ≠ .idle := by
    rintro rfl
    cases ha.request
  have hs := configured_of_phase hi hp hidle
  rw [markInv_iff] at hm ⊢
  rw [hs] at hm
  rw [ht, htrace, marks_call ha.request]
  cases p
  case rel => exact absurd rfl hrel
  case iCfgSdata => exact hm.append_cfgIn
  all_goals simpa [callMarks] using hm

/-- The RELEASE ends the configuration (44_teardown.md R233, R235). -/
theorem markInv_of_release {s t : State} {f : Bool} {l : Level} (hi : MachineInv s) (hm : MarkInv s)
    (hp : phaseOfCode s.seq = some .rel) (htrace : t.trace = s.trace ++ [⟨reqRelease, f, l⟩])
    (ht : configured t = false) : MarkInv t := by
  rw [markInv_iff] at hm ⊢
  rw [configured_of_phase hi hp nofun] at hm
  rw [ht, htrace, marks_call (p := .rel) rfl]
  exact hm.append_release

theorem callNext_ne {p q : Phase} (h : callNext p = some q) : p ≠ .rel ∧ q ≠ .idle ∧ q ≠ .iCfgSdata := by
  cases p <;> cases h <;> decide

/-- Every phase keeps the alternation of the marks. -/
theorem phaseStep_markInv {p : Phase} {s t : State} (hi : MachineInv s) (hm : MarkInv s)
    (hp : phaseOfCode s.seq = some p) (h : PhaseStep s p t) : MarkInv t := by
  have hit := phaseStep_machineInv hi hp h
  have hpi := phaseInv_of_machineInv hi hp
  cases h with
  | idle | issue | hold | count | cadenceCount => exact hm
  | initFault hip ha =>
    exact markInv_of_call hi hm hp ha (fun hr => by simp [hr, initPhase] at hip) rfl (configured_of_rel rfl)
  | acqFault hap ha =>
    exact markInv_of_call hi hm hp ha (fun hr => by simp [hr, acqPhase] at hap) rfl (configured_of_rel rfl)
  | advance hq ha =>
    obtain ⟨hrel, hidle, hfirst⟩ := callNext_ne hq
    have ht := configured_of_phase hit (phaseOfCode_phaseCode _) hidle
    rw [decide_eq_true hfirst] at ht
    exact markInv_of_call hi hm hp ha hrel rfl ht
  | configured ha => exact markInv_of_call hi hm hp ha nofun rfl (configured_of_active rfl)
  | sampled ha =>
    exact markInv_of_call hi hm hp ha nofun rfl (configured_of_phase (p := .ckRise) hit rfl nofun)
  | released =>
    obtain ⟨_, htear⟩ := hpi
    refine markInv_of_release hi hm hp (relDone_endsCall _).right ?_
    rw [configured_of_idle (relDone_seq _)]
    exact decide_eq_false (relDone_not_active htear)
  | expire hq =>
    have hap : acqPhase p = true := by cases p <;> cases hq <;> rfl
    have hl := (acqInv_of_phaseInv hap hpi).left
    exact markInv_of_active hm hl hl rfl
  | shifted | captureTorn | captureLoop | captureEnd | cadenceTorn | cadenceExpire =>
    have hl := hpi.left.left
    exact markInv_of_active hm hl hl rfl

/-! ### What the host leaves -/

/-- No command begins or ends a configuration: that takes a call (44_teardown.md R235). -/
theorem commandStep_configured {i : Instr} {s t : State} (h : CommandStep s i t) : configured t = configured s := by
  cases h with
  | rejected | initInvalid | cancelDeferred | releaseDeferred | describe => rfl
  | initStarts hs hl =>
    rw [configured_of_idle hs]
    simp [configured, hl, phaseCode, clearRecords]
  | acqAll _ hl | acqBit _ hl | acqLoop _ hl | cancelNow _ hl | releaseNow _ hl =>
    rw [configured_of_active hl]
    exact configured_of_active hl

theorem hostStep_configured {s t : State} (h : HostStep s t) : configured t = configured s := by
  cases h with
  | command _ hc => exact commandStep_configured hc
  | none | rejected | width | pins => rfl

theorem hostStep_markInv {s t : State} (hm : MarkInv s) (h : HostStep s t) : MarkInv t := by
  rw [markInv_iff, hostStep_configured h, hostStep_trace h]
  exact hm

theorem ofReset_markInv (c : Config) (env : List TickIn) (rd : Option Word) (n : Nat) :
    MarkInv (setStale n (State.ofReset c env rd)) :=
  ⟨0, rfl⟩

/-- Every step keeps the alternation of the marks. -/
theorem step_markInv {s t : State} (hi : MachineInv s) (hm : MarkInv s) (h : step s = .next t) : MarkInv t := by
  rcases step_inversion h with ⟨_, rd, rfl⟩ | ⟨_, p, s1, s2, rd, hp, _, h1, h2, rfl⟩
  · exact ofReset_markInv _ _ _ _
  · have hmarks := hostStep_markInv (phaseStep_markInv hi hm hp h1) h2
    exact hmarks

/-- Settles O44: CFG_IN's call makes the pins `configured`, the RELEASE ends it, and nothing else changes either. -/
theorem markInvKept : Obligations.MarkInvKept := fun _ _ => step_markInv

/-- The marks alternate in every reachable state. -/
theorem reachable_markInv {t : State} (h : Reachable t) : MarkInv t := by
  obtain ⟨c, env, n, hc, hrun⟩ := h
  have both : MachineInv t ∧ MarkInv t :=
    reachable (fun u => MachineInv u ∧ MarkInv u)
      (fun _ _ ⟨hi, hm⟩ hstep => ⟨step_machineInv hi hstep, step_markInv hi hm hstep⟩)
      ⟨ofReset_machineInv hc env none 0, ofReset_markInv c env none 0⟩ hrun
  exact both.right

/-! ### The counts (44_teardown.md R235) -/

/-- The operation that a mark stands for. -/
def markOp (mark : Bool) : PinOp := if mark then .cfgIn else .release

theorem length_filter_markOp (mark : Bool) (calls : List PinCall) :
    (calls.filter fun c => decide (c.req.op = markOp mark)).length = (marks calls).count mark := by
  induction calls using List.reverseRecOn with
  | nil => rfl
  | append_singleton calls c ih =>
    rw [marks_snoc, List.filter_append, List.length_append, List.count_append, ih]
    cases mark <;> cases h : c.req.op <;> simp [markOp, h]

/-- Settles O45: alternating marks differ in number by the unmatched CFG_IN. -/
theorem releaseExactlyOnce : Obligations.ReleaseExactlyOnce := by
  intro t ht
  have hcount := ((markInv_iff t).mp (reachable_markInv ht)).count
  have hone := (configured t).toNat_le
  have hcfgIn := length_filter_markOp true t.trace
  have hrelease := length_filter_markOp false t.trace
  simp only [markOp, if_true, Bool.false_eq_true, if_false] at hcfgIn hrelease
  simp only [hcfgIn, hrelease]
  refine ⟨by omega, by omega, fun hs hl => ?_, fun hl => ?_⟩
  · rw [configured_of_idle hs, decide_eq_false hl, Bool.toNat_false] at hcount
    omega
  · rw [configured_of_active hl, Bool.toNat_true] at hcount
    exact hcount

end Sys2Proof.Machine

/-! DESCRIBE and the end of a teardown (44_teardown.md R233, R234, R236, R237). -/

namespace Sys2Proof.Machine

/-! ### DESCRIBE -/

theorem describeWord_eq (s : State) :
    describeWord s = BitVec.ofNat 64 (s.cfgWidth.toNat + 2 ^ 8 * s.cfgSdata.toNat + 2 ^ 16 * s.cfgLoad.toNat +
      2 ^ 24 * s.cfgClk.toNat) := by
  apply BitVec.eq_of_toNat_eq
  rw [describeWord, BitVec.toNat_setWidth, BitVec.toNat_ofNat]
  repeat rw [toNat_append_eq_add]
  congr 1
  omega

/-- Settles O22: DESCRIBE is accepted, and its word is R237's number. -/
theorem describeReportsConfiguration : Obligations.DescribeReportsConfiguration := by
  intro s hs
  rw [← describeWord_eq]
  exact acceptIdle_accepted hs rfl fun s => .next { s with result := describeWord s, done := true }

/-! ### The response to REL -/

/-- The end of a teardown whose reason ends a lifetime (44_teardown.md R234). -/
theorem relDone_of_lifetime {s : State} {r : Tdr} {e : ExitCode}
    (hre : (r, e) ∈ [(Tdr.released, ExitCode.released), (.cancelled, .cancelled), (.fault, .fault)]) (h : s.tdr = r) :
    relDone s = { s with
      life := .tornDown, exit := e, cancelPending := false, releasePending := false, seq := 0x00#5, callst := .issue,
      curOp := none, loopMode := false, done := true } := by
  simp only [List.mem_cons, Prod.mk.injEq, List.not_mem_nil, or_false] at hre
  rcases hre with ⟨rfl, rfl⟩ | ⟨rfl, rfl⟩ | ⟨rfl, rfl⟩ <;> simp only [relDone, h] <;> rfl

/-- The end of the teardown of a failed INIT (44_teardown.md R234). -/
theorem relDone_of_initFail {s : State} (h : s.tdr = .initFail) :
    relDone s = { s with
      cancelPending := false, releasePending := false, seq := 0x00#5, callst := .issue, curOp := none,
      loopMode := false, done := true } := by
  simp only [relDone, h]
  rfl

/-- A faulting RELEASE is recorded, and the teardown ends all the same (60_exceptions.md R258). -/
theorem exec_rel_answered {s : State} {f : Bool} {l : Level} (hc : s.callst = .wait) (hr : rspNow s = some ⟨f, l⟩) :
    exec .rel s = .next (relDone { logCall reqRelease f l s with relFault := s.relFault || f }) := by
  refine congrArg Host.Outcome.next ?_
  cases f
  · rw [callStep_ok hc hr, Bool.or_false]
    rfl
  · rw [callStep_fault hc hr, Bool.or_true]

/-- Settles O35: the response ends the teardown, as its reason says. -/
theorem teardownCompletes : Obligations.TeardownCompletes := by
  intro s f l hc hr
  rw [exec_rel_answered hc hr]
  exact ⟨fun _ _ hre h => congrArg Host.Outcome.next (relDone_of_lifetime hre h),
    fun h => congrArg Host.Outcome.next (relDone_of_initFail h)⟩

end Sys2Proof.Machine

/-! Exceptions (60_exceptions.md): INIT with another agent's pin, a fault in an acquisition call, and the balance of
requests and responses. -/

namespace Sys2Proof.Machine

open Sys2Proof.Safety

/-! ### A shared pin (60_exceptions.md R270) -/

theorem performInit_shared {s : State} (hv : ConfigOk s) (hp : ¬ PinsFree s) : performInit s = .refused .sharedPin := by
  have hvalid : cfgValid (clearRecords s) = true := (cfgValid_iff (clearRecords s)).mpr hv
  have hshared : ¬ sharesPin (clearRecords s) = false := fun h => hp ((sharesPin_eq_false_iff (clearRecords s)).mp h)
  simp [performInit, hvalid, hshared]

/-- Settles O18: INIT is accepted, and its configuration is valid but not its own. -/
theorem initSharedPinRefused : Obligations.InitSharedPinRefused := by
  intro s hs hl hv hp
  rw [exec_init_accepted hs hl]
  exact performInit_shared (s := accepted s) hv hp

/-! ### A fault in an acquisition call (60_exceptions.md R256, R257) -/

/-- A call phase of an acquisition runs the acquisition's call primitive. -/
theorem exec_acqPhase_call {p : Phase} (hp : acqPhase p = true) {s : State} {q : PinReq}
    (hq : phaseRequest p s = some q) : ∃ f, exec (phaseInstr p) s = .next (acqCall q f s) := by
  cases p <;> cases hp <;> cases hq <;> exact ⟨_, rfl⟩

theorem exec_acqPhase_fault {p : Phase} (hp : acqPhase p = true) {s : State} {q : PinReq} {l : Level}
    (ha : Answered s p q true l) :
    exec (phaseInstr p) s = .next (fatal .hardwareFault q.op (logCall q true l s)) := by
  obtain ⟨f, hx⟩ := exec_acqPhase_call hp ha.request
  rw [hx, acqCall, callStep_fault ha.waits ha.response]

/-- Settles O30: each phase's call fails. -/
theorem acquisitionFault : Obligations.AcquisitionFault := by
  intro s l hc hr i q hi
  simp only [List.mem_cons, List.not_mem_nil, or_false, Prod.mk.injEq] at hi
  rcases hi with ⟨rfl, rfl⟩ | ⟨rfl, rfl⟩ | ⟨rfl, rfl⟩ | ⟨rfl, rfl⟩ | ⟨rfl, rfl⟩
  · exact exec_acqPhase_fault (p := .ldFall) rfl ⟨rfl, hc, hr⟩
  · exact exec_acqPhase_fault (p := .ldRise) rfl ⟨rfl, hc, hr⟩
  · exact exec_acqPhase_fault (p := .smp) rfl ⟨rfl, hc, hr⟩
  · exact exec_acqPhase_fault (p := .ckRise) rfl ⟨rfl, hc, hr⟩
  · exact exec_acqPhase_fault (p := .ckFall) rfl ⟨rfl, hc, hr⟩

/-! ### Whether a call waits after a tick (40_sequencer.md R128, R134) -/

/-- Whether SEQ's phase has a request depends on SEQ only (30_encoding.md R100). -/
theorem seqRequest_isSome_congr {s t : State} (h : t.seq = s.seq) :
    (seqRequest t).isSome = (seqRequest s).isSome := by
  unfold seqRequest
  rw [h]
  cases phaseOfCode s.seq with
  | none => rfl
  | some p => cases p <;> rfl

theorem awaiting_eq (s : State) : awaiting s = ((seqRequest s).isSome && decide (s.callst = .wait)) := by
  unfold awaiting seqRequest
  cases phaseOfCode s.seq <;> rfl

theorem awaiting_of_issue {s : State} (h : s.callst = .issue) : awaiting s = false := by
  simp [awaiting_eq, h]

/-- A phase moves SEQ only to the ISSUE sub-state of the next phase (40_sequencer.md R121, R135). -/
theorem phaseStep_seq_or_issue {p : Phase} {s t : State} (h : PhaseStep s p t) : t.seq = s.seq ∨ t.callst = .issue := by
  cases h with
  | idle | issue | hold | count | cadenceCount => exact .inl rfl
  | released => exact .inr (relDone_endsCall _).left
  | initFault | acqFault | advance | configured | sampled | expire | shifted | captureTorn | captureLoop | captureEnd
  | cadenceTorn | cadenceExpire => exact .inr rfl

/-- A tick moves SEQ only to the ISSUE sub-state of the next phase. -/
theorem step_seq_or_issue {s t : State} (h : step s = .next t) : t.seq = s.seq ∨ t.callst = .issue := by
  rcases step_inversion h with ⟨_, rd, rfl⟩ | ⟨_, p, s1, s2, rd, _, _, h1, h2, rfl⟩
  · exact .inr rfl
  · rcases hostStep_seq h2 with ⟨hseq, hcall⟩ | ⟨_, hissue, _⟩
    · exact (phaseStep_seq_or_issue h1).imp hseq.trans hcall.trans
    · exact .inr hissue

/-- The waiting call gets no response in this tick, and no reset abandons it. -/
def keepsWaiting (s : State) : Bool := awaiting s && (rspNow s).isNone && !rstNow s

theorem step_awaiting_of_reset {s t : State} (hr : rstNow s = true) (h : step s = .next t) : awaiting t = false := by
  rcases step_inversion h with ⟨_, rd, rfl⟩ | ⟨hno, _⟩
  · exact awaiting_of_issue rfl
  · rw [hr] at hno
    cases hno

theorem step_awaiting_of_no_request {s t : State} (hq : seqRequest s = none) (h : step s = .next t) :
    awaiting t = false := by
  rcases step_seq_or_issue h with hseq | hissue
  · simp [awaiting_eq, seqRequest_isSome_congr hseq, hq]
  · exact awaiting_of_issue hissue

theorem awaiting_of_kept_call {s t : State} {q : PinReq} (hq : seqRequest s = some q) (hseq : t.seq = s.seq)
    (hc : t.callst = .wait) : awaiting t = true := by
  simp [awaiting_eq, seqRequest_isSome_congr hseq, hq, hc]

/-- After a tick a call waits if the tick presented its request, or if it waited before and the tick did not end it. -/
theorem step_awaiting {s t : State} (h : step s = .next t) : awaiting t = ((pinPort s).valid || keepsWaiting s) := by
  cases hr : rstNow s with
  | true => simp [step_awaiting_of_reset hr h, pinPort, requestNow, keepsWaiting, hr]
  | false =>
    cases hq : seqRequest s with
    | none =>
      simp [step_awaiting_of_no_request hq h, pinPort_of_none (requestNow_of_none hr hq), keepsWaiting, awaiting_eq, hq]
    | some q =>
      cases hc : s.callst with
      | issue =>
        obtain ⟨hseq, hwait, _⟩ := step_issue hr h hq hc
        simp [awaiting_of_kept_call hq hseq hwait, pinPort_of_request ((requestNow_of_issue hr hc).trans hq)]
      | wait =>
        have hport := pinPort_of_none (requestNow_of_wait hc)
        cases hrsp : rspNow s with
        | none =>
          obtain ⟨hseq, hwait, _⟩ := step_hold hr h hq hc hrsp
          simp [awaiting_of_kept_call hq hseq hwait, keepsWaiting, awaiting_of_kept_call hq rfl hc, hrsp, hr]
        | some r =>
          obtain ⟨hissue, _⟩ := step_answered hr h hq hc hrsp
          simp [awaiting_of_issue hissue, hport, keepsWaiting, hrsp]

/-- No call waits while a request is presented: at most one is outstanding (20_memory.md R77). -/
theorem keepsWaiting_of_presented {s : State} (h : (pinPort s).valid = true) : keepsWaiting s = false := by
  cases hc : s.callst with
  | issue => simp [keepsWaiting, awaiting_of_issue hc]
  | wait => simp [pinPort_of_none (requestNow_of_wait hc)] at h

/-! ### The balance of requests and responses (60_exceptions.md R273, 70_reset_and_hazards.md R291) -/

/-- In an admitted tick each unanswered request either stays unanswered, as the waiting one or as an abandoned one, or
is the one that the response answers. -/
theorem staleAfter_balance {s : State} (hs : spurious s = false) :
    staleAfter s + (if keepsWaiting s then 1 else 0) + (if (rspNow s).isSome then 1 else 0) =
      s.stale + (if awaiting s then 1 else 0) := by
  rcases staleAfter_cases s with ⟨hw, hrsp, hr, h⟩ | ⟨hw, hr, h⟩ | ⟨hw, hrsp, h⟩ | ⟨hw, hrsp, h⟩
  · simp [h, keepsWaiting, hw, hrsp, hr]
  · cases hrsp : rspNow s with
    | none => simp [h, keepsWaiting, hw, hrsp, hr hrsp]
    | some r => simp [h, keepsWaiting, hw, hrsp]
  · simp [h, keepsWaiting, hw, hrsp]
  · have hpos : s.stale ≠ 0 := by simpa [spurious, hw, hrsp] using hs
    simp [h, keepsWaiting, hw, hrsp]
    omega

/-- Settles O60: the request of the tick is the one that waits after it, and the response ends the waiting call or
answers an abandoned request. -/
theorem responsesAnswerRequests : Obligations.ResponsesAnswerRequests := by
  refine fun s => ⟨fun hrsp hwait hstale => step_spurious ?_, fun t h => ?_⟩
  · simp [spurious, hrsp, hwait, hstale]
  · obtain ⟨hs, u, _, ht⟩ := step_next h
    have hstale : t.stale = staleAfter s := by rw [ht, setStale_stale]
    have hbalance := staleAfter_balance hs
    have hwaits : (if awaiting t then 1 else 0) =
        (if keepsWaiting s then 1 else 0) + (if (pinPort s).valid then 1 else 0) := by
      rw [step_awaiting h]
      cases hvalid : (pinPort s).valid with
      | true => simp [keepsWaiting_of_presented hvalid]
      | false => simp
    omega

end Sys2Proof.Machine

/-! Reset (70_reset_and_hazards.md R290, R291): a tick with `rst` 1 from its inputs, and what a read answers in it. -/

namespace Sys2Proof.Machine

open Sys2Proof.Safety

/-- No request is presented while `rst` is 1 (70_reset_and_hazards.md R290 d). -/
theorem requestNow_of_reset {s : State} (hr : rstNow s = true) : requestNow s = none := by
  simp [requestNow, hr]

/-- A reset abandons the request that waits unanswered; a response that no call waits for answers an abandoned one
(70_reset_and_hazards.md R291, log 5). -/
theorem staleAfter_of_reset {s : State} (hr : rstNow s = true) :
    staleAfter s = if awaiting s ∧ rspNow s = none then s.stale + 1
      else if awaiting s = false ∧ (rspNow s).isSome then s.stale - 1 else s.stale := by
  cases hw : awaiting s <;> cases hrsp : rspNow s <;> simp [staleAfter, hw, hrsp, hr]

/-- A write to the window selects its register (20_memory.md R61). -/
theorem busAccess_write {w : HostReg → Word → State → Result} {s : State} {off : Nat} {v : Word} (hoff : off < 32)
    (h4 : off % 4 = 0) (hacc : accNow s = some (.write (s.build.sicBase + off) 4 v)) :
    busAccess w s = andThen (w (regAt off) v s) fun t => .next (endTick none t) := by
  simp only [busAccess, hacc, target_reg hoff h4]

/-- In a reset tick the host's half, in which a write does nothing, runs on the reset state. -/
theorem step_of_reset {s : State} (hs : spurious s = false) (hr : rstNow s = true) :
    step s = andThen (busAccess (hostWrite true) (State.ofReset s.build s.env none)) fun t =>
      .next (setStale (staleAfter s) t) := by
  have hhalf : blockHalf s = .next (State.ofReset s.build s.env none) := by simp [blockHalf, hr]
  rw [step_admitted hs, blockTick_eq, hhalf, hr]
  rfl

/-- What the host's half leaves is the next state but for the count of abandoned requests. -/
theorem step_next_of_reset {s u : State} (hs : spurious s = false) (hr : rstNow s = true)
    (hu : busAccess (hostWrite true) (State.ofReset s.build s.env none) = .next u) : ∃ t, step s = .next t := by
  rw [step_of_reset hs hr, hu]
  exact ⟨_, rfl⟩

/-- The STATUS word of a reset block is 0: each of its fields has code 0 (10_state.md R23, R52). -/
theorem statusWord_ofReset (c : Config) (e : List TickIn) (rd : Option Word) :
    statusWord (State.ofReset c e rd) = 0#32 := by
  apply BitVec.eq_of_toNat_eq
  rw [statusWord_toNat]
  rfl

/-- Only CFG_WIDTH and PARAMS read as other than 0 in a reset block (10_state.md R21, R52). -/
theorem readTable_ofReset (off : Nat) (c : Config) (e : List TickIn) (rd : Option Word) :
    BitVec.ofNat 32 (readTable off (State.ofReset c e rd)) =
      if off = 0x08 then 8#32 else if off = 0x18 then c.wmax.setWidth 32 else 0#32 := by
  unfold readTable
  split
  case h_1 => simp [statusWord_ofReset]
  case h_7 hwidth _ _ _ hparams => rw [if_neg hwidth, if_neg hparams]
  all_goals simp

/-- What a reset tick leaves (70_reset_and_hazards.md R290). -/
theorem step_reset_inversion {s t : State} (hr : rstNow s = true) (h : step s = .next t) :
    ∃ rd, t = setStale (staleAfter s) (State.ofReset s.build s.env.tail rd) := by
  rcases step_inversion h with ⟨_, hreset⟩ | ⟨hno, _⟩
  · exact hreset
  · rw [hr] at hno
    cases hno

/-- The read of a reset tick answers with the register's reset value (70_reset_and_hazards.md R290). -/
theorem rdata_of_reset {s t : State} {off : Nat} (hr : rstNow s = true) (h : step s = .next t) (hoff : off < 32)
    (h4 : off % 4 = 0) (hacc : accNow s = some (.read (s.build.sicBase + off) 4)) :
    t.rdata = some (if off = 0x08 then 8#32 else if off = 0x18 then s.build.wmax.setWidth 32 else 0#32) := by
  obtain ⟨rd, ht⟩ := step_reset_inversion hr h
  have htable : readTable off t = readTable off (State.ofReset s.build s.env.tail rd) := by rw [ht]; rfl
  have hin : target s.build (s.build.sicBase + off) 4 ≠ .elsewhere := by simp [target_reg hoff h4]
  obtain ⟨_, hrd⟩ := read_answer hacc h
  rw [hrd, if_neg hin, Nat.add_sub_cancel_left, htable, readTable_ofReset]

/-- Settles O13: the host's half of a reset tick has a next state for each admitted access, and what it leaves is the
reset state. -/
theorem resetTick_resets : Obligations.ResetTick := by
  refine fun s hr => ⟨pinPort_of_none (requestNow_of_reset hr), fun hs hacc => ?_, fun t h => ?_⟩
  · rcases hacc with hnone | ⟨off, hoff, h4, hread | ⟨v, hwrite⟩⟩
    · exact step_next_of_reset hs hr (busAccess_none hnone)
    · exact step_next_of_reset hs hr (busAccess_readTable hoff h4 hread)
    · exact step_next_of_reset hs hr (busAccess_write hoff h4 hwrite)
  · have hrdata := fun off => rdata_of_reset (off := off) hr h
    obtain ⟨rd, rfl⟩ := step_reset_inversion hr h
    exact ⟨rfl, rfl, rfl, rfl, rfl, rfl, rfl, rfl, rfl, rfl, rfl, rfl, rfl, rfl, rfl, rfl, rfl, rfl, rfl, rfl, rfl, rfl,
      rfl, rfl, rfl, rfl, staleAfter_of_reset hr, hrdata⟩

end Sys2Proof.Machine
